-- ==== Sys2Proof/Word.lean ====
section
/-! DEFINITION. The three widths of the engine (00_scope.md R6, R7): bit 0 is the least significant bit, every value is
unsigned, and 64-bit arithmetic is modulo 2^64 (R8), which is what a bit vector of that width does. -/

namespace Sys2Proof

/-- A 64-bit value: the accumulator, the result, a table entry (00_scope.md R6, width `W`). -/
abbrev Word64 := BitVec 64

/-- An octet: an input byte, a table index, a character of the text (00_scope.md R7). -/
abbrev Byte := BitVec 8

/-- A command word `cw` (30_encoding.md R46). -/
abbrev CommandWord := BitVec 16

end Sys2Proof
end

