-- ==== Sys2Proof/Machine/Operands.lean ====
section
/-! DEFINITION. The fields of a command word (30_encoding.md R46): the opcode and the argument, which for `UPDATE` is the
input byte, the only explicit operand (R48). The one implicit operand, the table entry, is addressed by `tableIndex` in
Machine/Engine.lean. -/

namespace Sys2Proof.Machine

/-- `op = cw[15:8]` (30_encoding.md R46). -/
def opField (cw : CommandWord) : Byte := cw.extractLsb' 8 8

/-- `arg = cw[7:0]`, used as it stands: not extended, scaled or shifted (30_encoding.md R46, R48). -/
def argField (cw : CommandWord) : Byte := cw.extractLsb' 0 8

/-- `cw = op * 256 + arg` (30_encoding.md R46). -/
def commandWord (op arg : Byte) : CommandWord := BitVec.ofNat 16 (op.toNat * 256 + arg.toNat)

end Sys2Proof.Machine
end

