-- ==== Sys2Proof/Syntax.lean ====
section
/-! DEFINITION. The four commands of the engine, one constructor per row of spec/opcode_table.json. -/

namespace Sys2Proof

/-- A command (30_encoding.md R47). The only operand is the byte of `UPDATE` (R48). -/
inductive Instr where
  /-- `NOP`: no effect (41_engine.md R74). -/
  | nop
  /-- `INIT`: create the accumulator (41_engine.md R75). -/
  | init
  /-- `UPDATE b`: fold one input byte (41_engine.md R76). -/
  | update (b : Byte)
  /-- `FINAL`: produce the result and its text (41_engine.md R77). -/
  | final
deriving DecidableEq, Repr

end Sys2Proof
end

