-- ==== Sys2Proof/Decode.lean ====
section
/-! DEFINITION. Decoding, total on the 65536 command words (30_encoding.md R50), with the reserved words rejected by name,
and the encoder (R50), written from the opcode map (R47). -/

namespace Sys2Proof

/-- Why a command word is reserved: the two reserved lines of the opcode map (30_encoding.md R47). -/
inductive Reserved where
  /-- `op` is `0x04..0xFF`. -/
  | unassignedOpcode (op : Byte)
  /-- `op` is that of `NOP`, `INIT` or `FINAL`, and `arg` is not `0x00`. -/
  | nonzeroArgument (op arg : Byte)
deriving DecidableEq, Repr

/-- What a command word decodes to: "exactly one of `NOP`, `INIT`, `UPDATE b`, `FINAL`, or `RESERVED`"
(30_encoding.md R50). -/
inductive Decoded where
  | command (i : Instr)
  | reserved (why : Reserved)
deriving DecidableEq, Repr

/-- The decoder, in the order of 30_encoding.md R50. -/
def decode (cw : CommandWord) : Decoded :=
  let op := Machine.opField cw
  let arg := Machine.argField cw
  if op = 0x02#8 then .command (.update arg)
  else if op = 0x00#8 ∧ arg = 0#8 then .command .nop
  else if op = 0x01#8 ∧ arg = 0#8 then .command .init
  else if op = 0x03#8 ∧ arg = 0#8 then .command .final
  else if op = 0x00#8 ∨ op = 0x01#8 ∨ op = 0x03#8 then .reserved (.nonzeroArgument op arg)
  else .reserved (.unassignedOpcode op)

/-- The encoder (30_encoding.md R47, R50): the opcode in the high byte, the argument in the low byte. -/
def encode : Instr → CommandWord
  | .nop => Machine.commandWord 0x00#8 0x00#8
  | .init => Machine.commandWord 0x01#8 0x00#8
  | .update b => Machine.commandWord 0x02#8 b
  | .final => Machine.commandWord 0x03#8 0x00#8

/-- The instruction of a decoded word, if it is not reserved. -/
def Decoded.instr? : Decoded → Option Instr
  | .command i => some i
  | .reserved _ => none

/-- The first command word of an opcode-table number `w` of which `nbits` bits are given: bit 0 of the number is bit 0 of
the word, and every bit from `nbits` up is 0 (log entry 10). -/
def tableWord (nbits w : Nat) : CommandWord := BitVec.ofNat 16 (w % 2 ^ nbits)

/-- The instruction the decoder reads from an opcode-table number; none where the word is reserved. -/
def decodeTableWord (nbits w : Nat) : Option Instr := (decode (tableWord nbits w)).instr?

end Sys2Proof
end

