-- ==== Sys2Proof/Machine/Reflect.lean ====
section
/-! DEFINITION. The bit-reflection primitive (40_table.md R60, R61). -/

namespace Sys2Proof.Machine

/-- The loop of 40_table.md R60 after its first `k` rounds: for `i` in `0 .. k-1`, if bit `i` of `v` is set, bit
`w-1-i` of the result is set. The result starts from zero. -/
def reflectRounds {n : Nat} (v : BitVec n) (w : Nat) : Nat → BitVec w
  | 0 => 0#w
  | i + 1 =>
    let r := reflectRounds v w i
    if v.getLsbD i then r ||| BitVec.twoPow w (w - 1 - i) else r

/-- `reflect(value, width)`: the low `w` bits of `v` in reverse order; bits of `v` at `w` and above are ignored
(40_table.md R60). -/
def reflect {n : Nat} (v : BitVec n) (w : Nat) : BitVec w := reflectRounds v w w

/-- `reflect8` (40_table.md R61). -/
def reflect8 (v : Byte) : Byte := reflect v 8

/-- `reflect64` (40_table.md R61). -/
def reflect64 (v : Word64) : Word64 := reflect v 64

end Sys2Proof.Machine
end

