-- ==== Sys2Proof/Config.lean ====
section
/-! DEFINITION. The parameters of 00_scope.md R6. All are fixed; the one OPEN parameter, `N_ENGINES`, is the argument `n`
of `Machine.Device n`. The engine has no free value (00_scope.md R5). -/

namespace Sys2Proof.Config

/-- `POLY`, the generator polynomial without its x^64 term (00_scope.md R6, 10_state.md R11). -/
def poly : Word64 := 0x42F0E1EBA9EA3693#64

/-- `INIT`, the accumulator before the first byte: all-ones (00_scope.md R6). -/
def initAcc : Word64 := 0xFFFFFFFFFFFFFFFF#64

/-- `XOROUT`, the final XOR mask: all-ones (00_scope.md R6). -/
def xorOut : Word64 := 0xFFFFFFFFFFFFFFFF#64

/-- The default of `N_ENGINES` (00_scope.md R6). -/
abbrev defaultEngines : Nat := 1

end Sys2Proof.Config
end

