-- ==== Sys2Proof/Machine/Table.lean ====
section
/-! DEFINITION. The ReflectionTable, by the construction of 40_table.md R62 (the corrected one of 90_conflicts.md C1: the
index is placed unreflected). It is a constant, no field of State (10_state.md R12). -/

namespace Sys2Proof.Machine

/-- One round of the loop of 40_table.md R62: shift left by one, and XOR `POLY` if bit 63 was set before the shift. -/
def polyStep (w : Word64) : Word64 :=
  if w.getLsbD 63 then (w <<< 1) ^^^ Config.poly else w <<< 1

/-- `k` rounds of the loop of 40_table.md R62. -/
def polySteps : Nat → Word64 → Word64
  | 0, w => w
  | k + 1, w => polySteps k (polyStep w)

/-- `T(i)`: `i` in bits 63..56, then eight rounds (40_table.md R62). It is `TABLE[i]` (10_state.md R12). -/
def tableEntry (i : Byte) : Word64 := polySteps 8 (i.setWidth 64 <<< 56)

end Sys2Proof.Machine
end

