-- ==== Sys2Proof/Machine/Engine.lean ====
section
/-! DEFINITION. The ChecksumEngine's function level: the fold, the finalisation and the whole function (41_engine.md R70,
R71, R72). -/

namespace Sys2Proof.Machine

/-- The index of the one table read: `(s >> 56) xor reflect8(b)`, "truncated to the low 8 bits" (20_memory.md R38). It is
the engine's only addressing mode (41_engine.md R84). -/
def tableIndex (s : Word64) (b : Byte) : Byte := (s >>> 56).setWidth 8 ^^^ reflect8 b

/-- `fold(s, b)` (41_engine.md R70). -/
def fold (s : Word64) (b : Byte) : Word64 := tableEntry (tableIndex s b) ^^^ (s <<< 8)

/-- `finalize(s)` (41_engine.md R71). -/
def finalize (s : Word64) : Word64 := reflect64 s ^^^ Config.xorOut

/-- `foldl fold s bytes` (41_engine.md R72, 00_scope.md R9). -/
def foldBytes (s : Word64) (bytes : List Byte) : Word64 := bytes.foldl fold s

/-- `crc64(bytes)`, the source's `compute` (41_engine.md R72). -/
def crc64 (bytes : List Byte) : Word64 := finalize (foldBytes Config.initAcc bytes)

end Sys2Proof.Machine
end

