-- ==== Sys2Proof/Machine/Decimal.lean ====
section
/-! DEFINITION. The decimal rendering of the result (42_decimal.md) and its layout in the registers (R88). -/

namespace Sys2Proof.Machine

/-- The digits `d[0], d[1], ..` of the loop of 42_decimal.md R85, least significant first. The first argument bounds the
rounds; 20 are enough for a 64-bit value (R85: "at most 20 times"). The loop body runs at least once. -/
def digitsFrom : Nat → Nat → List Nat
  | 0, _ => []
  | rounds + 1, t => t % 10 :: if t / 10 = 0 then [] else digitsFrom rounds (t / 10)

/-- The character of a decimal digit, `0x30 + x` (42_decimal.md R87). -/
def digitChar (x : Nat) : Byte := 0x30#8 + BitVec.ofNat 8 x

/-- `dec(v)`: the characters, most significant first (42_decimal.md R85). The value is unsigned (R86). -/
def dec (v : Word64) : List Byte := ((digitsFrom 20 v.toNat).reverse).map digitChar

/-- `DEC_LEN` for a text: its number of characters (42_decimal.md R88). -/
def textLen (text : List Byte) : BitVec 5 := BitVec.ofNat 5 text.length

/-- `DEC_DIGITS` for a text: left-aligned, the rest `0x00` (42_decimal.md R88). -/
def textDigits (text : List Byte) : Vector Byte 20 := Vector.ofFn fun k => text.getD k.val 0

/-- `checksum(bytes)` (42_decimal.md R89). -/
def checksum (bytes : List Byte) : List Byte := dec (crc64 bytes)

end Sys2Proof.Machine
end

