-- ==== Sys2Proof/Machine/State.lean ====
section
/-! DEFINITION. The state of one engine instance (10_state.md R10), the events its host presents (60_exceptions.md R92),
the outcomes of a step, and the state after reset (10_state.md R26). -/

namespace Sys2Proof.Machine

/-- What the host presents at one moment: "Only two kinds of event reach the engine: an accepted command word, and reset",
and the two may coincide (60_exceptions.md R92). Neither is a pause. -/
structure HostEvent where
  /-- The reset input is asserted. -/
  reset : Bool
  /-- The command word on the port, at most one (30_encoding.md R55). -/
  word : Option CommandWord
deriving DecidableEq, Repr

/-- The state. The first four fields are all the state the spec gives an instance (10_state.md R10). `POLY` and `TABLE` are
constants, not state (R11, R12). -/
structure State where
  /-- `ACC`, the checksum state (10_state.md R14). -/
  acc : Word64
  /-- `RESULT` (10_state.md R17). -/
  result : Word64
  /-- `DEC_LEN`, 1..20 (10_state.md R18). -/
  decLen : BitVec 5
  /-- `DEC_DIGITS[0..19]` (10_state.md R18). -/
  decDigits : Vector Byte 20
  /-- DESIGN CHOICE (log entry 1; the MODEL's own field): what the host has still to present, oldest first. The engine
  stores no program (10_state.md R20); this list is its environment. -/
  inbox : List HostEvent
deriving DecidableEq, Repr

/-- Faults: none. 60_exceptions.md R90: "The engine raises no exception, trap, fault or error of any kind". -/
inductive Fault where
deriving DecidableEq, Repr

/-- Refusals. R98 of 60_exceptions.md: the step has "no refusal outcome" when 30_encoding.md R49 is followed, as here. -/
inductive Refusal where
  /-- The host's name for an instruction without a meaning. No arm of `exec` raises it: every command has its meaning.
  Safe: nothing could be proved of a run that ended so. -/
  | notModelled (mnemonic : String)
deriving DecidableEq, Repr

/-- The machine right after reset: the register values of 10_state.md R26. The empty `inbox` is log entry 1. -/
def State.reset : State where
  acc := 0xFFFFFFFFFFFFFFFF
  result := 0
  decLen := 1
  decDigits := #v[0x30, 0, 0, 0, 0, 0, 0, 0, 0, 0, 0, 0, 0, 0, 0, 0, 0, 0, 0, 0]
  inbox := []

end Sys2Proof.Machine
end

