-- ==== Sys2Proof/Machine/Ops.lean ====
section
/-! DEFINITION. The named operations over registers, the table and the host's port. There is no operation for taking an
exception or returning from one: the engine has no trap mechanism (60_exceptions.md R93). -/

namespace Sys2Proof.Machine

/-- The engine's one memory read, all 64 bits of an entry of `TABLE` (20_memory.md R30). Every index is in range (R38). -/
def readTable (i : Byte) : Word64 := tableEntry i

/-- `ACC <- v`. -/
def State.writeAcc (s : State) (v : Word64) : State := { s with acc := v }

/-- Write a result: `RESULT <- v` and `(DEC_LEN, DEC_DIGITS) <- encoding of dec(v)`, always together (10_state.md R17, R18;
42_decimal.md R88). -/
def State.writeResult (s : State) (v : Word64) : State :=
  { s with result := v, decLen := textLen (dec v), decDigits := textDigits (dec v) }

/-- The reset event on the registers (70_reset_and_hazards.md R105). What the host will present later is not the engine's
and stays. -/
def State.resetRegisters (s : State) : State := { State.reset with inbox := s.inbox }

/-- Place an event where the next step takes it: before all the others. -/
def State.present (s : State) (e : HostEvent) : State := { s with inbox := e :: s.inbox }

/-- What reaches the engine of one moment of the host's inputs. -/
inductive PortInput where
  | pause
  | reset
  | word (cw : CommandWord)
deriving DecidableEq, Repr

/-- Reset wins over a command word presented at the same time, which is then not executed (60_exceptions.md R92; that
the word is gone with the event: log entry 4, DEDUCED). -/
def HostEvent.input (e : HostEvent) : PortInput :=
  if e.reset then .reset
  else match e.word with
    | none => .pause
    | some cw => .word cw

/-- Take the next event off the host's list; with none left the host presents nothing (log entry 2, DEDUCED from
30_encoding.md R55). -/
def State.takeInput (s : State) : PortInput × State :=
  match s.inbox with
  | [] => (.pause, s)
  | e :: rest => (e.input, { s with inbox := rest })

/-- A reserved word is accepted and discarded: it changes no register (30_encoding.md R49). -/
def State.discard (s : State) (_why : Reserved) : State := s

end Sys2Proof.Machine
end

