-- ==== Sys2Proof/Machine/Commands.lean ====
section
/-! DEFINITION. The meanings of the four commands (41_engine.md section 3). Each is one atomic step: it reads the state the
previous command left and writes its results together (20_memory.md R36). -/

namespace Sys2Proof.Machine

/-- `NOP` (41_engine.md R74): reads nothing, writes nothing. -/
def execNop (s : State) : Host.Outcome State Fault Refusal := .next s

/-- `INIT` (41_engine.md R75): `ACC <- all-ones`. -/
def execInit (s : State) : Host.Outcome State Fault Refusal := .next (s.writeAcc Config.initAcc)

/-- `UPDATE b` (41_engine.md R76): `ACC <- fold(ACC, b)`, with its one read of `TABLE` named. -/
def execUpdate (b : Byte) (s : State) : Host.Outcome State Fault Refusal :=
  .next (s.writeAcc (readTable (tableIndex s.acc b) ^^^ (s.acc <<< 8)))

/-- `FINAL` (41_engine.md R77): the result of the old `ACC`, its text, and `ACC <- all-ones`. -/
def execFinal (s : State) : Host.Outcome State Fault Refusal :=
  .next ((s.writeResult (finalize s.acc)).writeAcc Config.initAcc)

end Sys2Proof.Machine
end

