-- ==== Sys2Proof/Machine/Accept.lean ====
section
/-! DEFINITION. What the engine does with what reaches its port. -/

namespace Sys2Proof.Machine

/-- Accept one command word: run its command, or discard it if it is reserved (30_encoding.md R49, R50). -/
def acceptWord (cw : CommandWord) (s : State) : Host.Outcome State Fault Refusal :=
  match decode cw with
  | .command i => exec i s
  | .reserved why => .next (s.discard why)

/-- One moment of the engine: nothing happens between accepted words (30_encoding.md R55), reset sets the registers
(70_reset_and_hazards.md R105), a word is executed as one step. -/
def acceptInput (p : PortInput) (s : State) : Host.Outcome State Fault Refusal :=
  match p with
  | .pause => .next s
  | .reset => .next s.resetRegisters
  | .word cw => acceptWord cw s

end Sys2Proof.Machine
end

