-- ==== Sys2Proof/Machine/Step.lean ====
section
/-! DEFINITION. The step: one event of the host's list. -/

namespace Sys2Proof.Machine

/-- One step of the engine (60_exceptions.md R98): take the next event the host presents and act on it. -/
def step (s : State) : Host.Outcome State Fault Refusal :=
  acceptInput s.takeInput.1 s.takeInput.2

/-- `s` with the command word of an opcode-table number presented next, before whatever else the host will present: the
engine has no program memory, so this is where a step takes its next command (log entries 3, 10). -/
def State.withFetchWord (s : State) (nbits w : Nat) : State :=
  s.present { reset := false, word := some (tableWord nbits w) }

end Sys2Proof.Machine
end

