-- ==== Sys2Proof/Machine/Assembler.lean ====
section
/-! DEFINITION. The assembler text of 30_encoding.md R52 and the pseudo-instructions of R53. The engine sees only the
expanded words. A text is a list of characters, one line each; `none` means the line is not a line of that syntax. The
lexical details the spec leaves open are log entry 11 (DESIGN CHOICE). -/

namespace Sys2Proof.Machine.Asm

/-- A line of a command stream. -/
inductive Line where
  /-- Nothing but space or a comment. DESIGN CHOICE (log entry 11): such a line may stand in a stream. -/
  | blank
  /-- One of `NOP`, `INIT`, `UPDATE <byte>`, `FINAL` (30_encoding.md R52). -/
  | command (i : Instr)
  /-- `.word 0xNNNN` (30_encoding.md R52). -/
  | word (cw : CommandWord)
  /-- `UPDATES "<text>"`, the codes of its characters (30_encoding.md R53). -/
  | updates (text : List Byte)
  /-- `UPDATEB b0, b1, ..` (30_encoding.md R53). -/
  | updateB (bytes : List Byte)
  /-- `CHECKSUM "<text>"` (30_encoding.md R53). -/
  | checksum (text : List Byte)
deriving DecidableEq, Repr

/-- The command words a line stands for (30_encoding.md R53); a blank or comment-only line stands for none (DESIGN CHOICE,
log entry 11). -/
def Line.expand : Line → List CommandWord
  | .blank => []
  | .command i => [encode i]
  | .word cw => [cw]
  | .updates text => text.map fun b => encode (.update b)
  | .updateB bytes => bytes.map fun b => encode (.update b)
  | .checksum text => encode .init :: (text.map (fun b => encode (.update b)) ++ [encode .final])

def isSpace (c : Char) : Bool := c == ' ' || c == '\t'

def skipSpaces (cs : List Char) : List Char := cs.dropWhile isSpace

/-- The rest of the line is space or a comment: a `;` "runs to the end of the line" (30_encoding.md R52). -/
def atEnd (cs : List Char) : Bool :=
  match skipSpaces cs with
  | [] => true
  | c :: _ => c == ';'

/-- The value of a hexadecimal digit, if it is one below `base`. -/
def digitValue (base : Nat) (c : Char) : Option Nat :=
  let n := c.toNat
  let v := if 0x30 ≤ n ∧ n ≤ 0x39 then n - 0x30
    else if 0x41 ≤ n ∧ n ≤ 0x46 then n - 0x37
    else if 0x61 ≤ n ∧ n ≤ 0x66 then n - 0x57
    else base
  if v < base then some v else none

/-- Read on through the digits of a number. -/
def moreDigits (base : Nat) : Nat → List Char → Nat × List Char
  | v, [] => (v, [])
  | v, c :: cs =>
    match digitValue base c with
    | some d => moreDigits base (v * base + d) cs
    | none => (v, c :: cs)

/-- A number of at least one digit, and what follows it. -/
def number (base : Nat) : List Char → Option (Nat × List Char)
  | [] => none
  | c :: cs => (digitValue base c).map fun d => moreDigits base d cs

/-- The code of an ASCII character (30_encoding.md R52; PRESUMED, log entry 12). -/
def charCode (c : Char) : Option Byte := if c.toNat < 128 then some (BitVec.ofNat 8 c.toNat) else none

/-- The code of a printable ASCII character (30_encoding.md R52). -/
def printableCode (c : Char) : Option Byte := if 0x20 ≤ c.toNat ∧ c.toNat < 0x7F then charCode c else none

/-- A number that is a byte, 0..255 (30_encoding.md R52). -/
def asByte (p : Nat × List Char) : Option (Byte × List Char) :=
  if p.1 < 256 then some (BitVec.ofNat 8 p.1, p.2) else none

/-- `<byte>`: hexadecimal with `0x`, decimal, or a character in single quotes (30_encoding.md R52). -/
def byteOperand : List Char → Option (Byte × List Char)
  | '\'' :: c :: '\'' :: cs => (printableCode c).map fun b => (b, cs)
  | '0' :: 'x' :: cs => (number 16 cs).bind asByte
  | cs => (number 10 cs).bind asByte

/-- `b0, b1, .., bn-1` to the end of the line; the first argument bounds the number of bytes. -/
def byteList : Nat → List Char → Option (List Byte)
  | 0, _ => none
  | fuel + 1, cs =>
    match byteOperand (skipSpaces cs) with
    | none => none
    | some (b, rest) =>
      match skipSpaces rest with
      | ',' :: more => (byteList fuel more).map (b :: ·)
      | rest' => if atEnd rest' then some [b] else none

/-- The characters up to the closing double quote, as codes, with only space or a comment after it. -/
def quotedRest : List Char → Option (List Byte)
  | [] => none
  | '"' :: cs => if atEnd cs then some [] else none
  | c :: cs => (charCode c).bind fun b => (quotedRest cs).map (b :: ·)

/-- `"<text>"` (30_encoding.md R53). -/
def quoted : List Char → Option (List Byte)
  | '"' :: cs => quotedRest cs
  | _ => none

/-- Four hexadecimal digits after `0x` (30_encoding.md R52). -/
def wordOperand : List Char → Option CommandWord
  | '0' :: 'x' :: a :: b :: c :: d :: cs =>
    match number 16 [a, b, c, d] with
    | some (v, []) => if atEnd cs then some (BitVec.ofNat 16 v) else none
    | _ => none
  | _ => none

/-- `<byte>` and nothing after it. -/
def oneByte (cs : List Char) : Option Byte :=
  match byteOperand cs with
  | some (b, rest) => if atEnd rest then some b else none
  | none => none

/-- The mnemonic of a line and the text after it. -/
def splitMnemonic (cs : List Char) : List Char × List Char := cs.span fun c => !(isSpace c || c == ';')

/-- Read one line (30_encoding.md R52, R53). Mnemonics are upper case. R52 says "one command per line" and not whether a line
may have no command: DESIGN CHOICE (log entry 11), an empty or comment-only line is accepted. -/
def parseLine (cs : List Char) : Option Line :=
  let p := splitMnemonic (skipSpaces cs)
  let rest := skipSpaces p.2
  if p.1 = [] then (if atEnd rest then some .blank else none)
  else if p.1 = ['N', 'O', 'P'] then (if atEnd rest then some (.command .nop) else none)
  else if p.1 = ['I', 'N', 'I', 'T'] then (if atEnd rest then some (.command .init) else none)
  else if p.1 = ['F', 'I', 'N', 'A', 'L'] then (if atEnd rest then some (.command .final) else none)
  else if p.1 = ['U', 'P', 'D', 'A', 'T', 'E'] then (oneByte rest).map fun b => .command (.update b)
  else if p.1 = ['.', 'w', 'o', 'r', 'd'] then (wordOperand rest).map .word
  else if p.1 = ['U', 'P', 'D', 'A', 'T', 'E', 'S'] then (quoted rest).map .updates
  else if p.1 = ['U', 'P', 'D', 'A', 'T', 'E', 'B'] then (byteList (rest.length + 1) rest).map .updateB
  else if p.1 = ['C', 'H', 'E', 'C', 'K', 'S', 'U', 'M'] then (quoted rest).map .checksum
  else none

/-- Assemble a stream, one command a line (30_encoding.md R52); `none` if some line is not of the syntax. -/
def assemble : List (List Char) → Option (List CommandWord)
  | [] => some []
  | l :: ls => (parseLine l).bind fun x => (assemble ls).map (x.expand ++ ·)

/-- The upper-case hexadecimal digit of a value below 16. -/
def hexDigit (v : Nat) : Char := if v < 10 then Char.ofNat (0x30 + v) else Char.ofNat (0x37 + v)

/-- A command as text, the byte in hexadecimal (30_encoding.md R52). -/
def printInstr : Instr → List Char
  | .nop => ['N', 'O', 'P']
  | .init => ['I', 'N', 'I', 'T']
  | .update b => ['U', 'P', 'D', 'A', 'T', 'E', ' ', '0', 'x', hexDigit (b.toNat / 16), hexDigit (b.toNat % 16)]
  | .final => ['F', 'I', 'N', 'A', 'L']

/-- A word as `.word 0xNNNN` (30_encoding.md R52). -/
def printWord (cw : CommandWord) : List Char :=
  ['.', 'w', 'o', 'r', 'd', ' ', '0', 'x', hexDigit (cw.toNat / 4096), hexDigit (cw.toNat / 256 % 16),
    hexDigit (cw.toNat / 16 % 16), hexDigit (cw.toNat % 16)]

end Sys2Proof.Machine.Asm
end

