-- ==== Sys2Proof/Machine/Device.lean ====
section
/-! DEFINITION. A device of `N_ENGINES = n` instances (00_scope.md R6, OPEN; 60_exceptions.md R95): each has its own
registers and its own port, and they share only the constant table, so the device is the plain product (20_memory.md R40).
Which instance moves next is the argument of the step (log entry 7). -/

namespace Sys2Proof.Machine

/-- `n` instances. -/
structure Device (n : Nat) where
  engines : Vector State n
deriving DecidableEq, Repr

/-- "Each comes out of reset in the state of R26" (60_exceptions.md R95). -/
def Device.reset (n : Nat) : Device n := ⟨Vector.replicate n State.reset⟩

/-- A device of the default size, one instance (00_scope.md R6). -/
def Device.single (s : State) : Device Config.defaultEngines := ⟨#v[s]⟩

/-- Instance `k` takes one step; no other instance moves (20_memory.md R40). -/
def Device.stepAt {n : Nat} (d : Device n) (k : Fin n) : Host.Outcome (Device n) Fault Refusal :=
  match step d.engines[k] with
  | .next t => .next ⟨d.engines.set k t⟩
  | .fault r => .fault r
  | .refused r => .refused r

/-- The instances move in the order of a schedule, any interleaving (20_memory.md R40). -/
def Device.runSchedule {n : Nat} : List (Fin n) → Device n → Host.Outcome (Device n) Fault Refusal
  | [], d => .next d
  | k :: ks, d =>
    match d.stepAt k with
    | .next d' => Device.runSchedule ks d'
    | .fault r => .fault r
    | .refused r => .refused r

end Sys2Proof.Machine
end

