-- ==== Sys2Proof/Machine/Equivalents.lean ====
section
/-! DEFINITION. The other forms of the same functions that the spec gives: bit-serial (41_engine.md R80), least significant
bit first (R82), and the tables `TREF` and `T41` (40_table.md R65). No meaning uses them: they are what claims compare the
engine's datapath with. -/

namespace Sys2Proof.Machine

/-- One bit of the bit-serial form: `t = s[63] xor bit`, shift left by one, XOR `POLY` if `t` (41_engine.md R80). -/
def foldBit (s : Word64) (bit : Bool) : Word64 :=
  if s.getLsbD 63 ^^ bit then (s <<< 1) ^^^ Config.poly else s <<< 1

/-- `foldbits(s, b)`: the bits of `b` from bit 0 to bit 7 (41_engine.md R80). -/
def foldBits (s : Word64) (b : Byte) : Word64 := (List.range 8).foldl (fun t k => foldBit t (b.getLsbD k)) s

/-- `reflect64(POLY)`, the reflected polynomial (40_table.md R65, 00_scope.md R6). -/
def polyReflected : Word64 := reflect64 Config.poly

/-- One round of DOC00 §3's derivation: shift right by one, XOR the reflected polynomial if bit 0 was 1
(40_table.md R65). -/
def polyStepRight (w : Word64) : Word64 :=
  if w.getLsbD 0 then (w >>> 1) ^^^ polyReflected else w >>> 1

/-- `k` rounds of `polyStepRight`. -/
def polyStepsRight : Nat → Word64 → Word64
  | 0, w => w
  | k + 1, w => polyStepsRight k (polyStepRight w)

/-- `TREF(i)` as it is built: `i` in the low byte, eight right shifts (40_table.md R65, 41_engine.md R82). -/
def tableRef (i : Byte) : Word64 := polyStepsRight 8 (i.setWidth 64)

/-- The least-significant-bit-first update of `S = reflect64(ACC)` (41_engine.md R82). -/
def foldRef (S : Word64) (b : Byte) : Word64 := tableRef ((S ^^^ b.setWidth 64).setWidth 8) ^^^ (S >>> 8)

/-- `T41(i)`, DOC00 §4.1 as written: the reflected index in the high byte (40_table.md R65). -/
def table41 (i : Byte) : Word64 := polySteps 8 ((reflect8 i).setWidth 64 <<< 56)

/-- The fold of an engine that stores `T41` and indexes it with `reflect8(ACC >> 56) xor b` (40_table.md R65, repair (E)
of 90_conflicts.md C1). -/
def fold41 (s : Word64) (b : Byte) : Word64 := table41 (reflect8 ((s >>> 56).setWidth 8) ^^^ b) ^^^ (s <<< 8)

end Sys2Proof.Machine
end

