-- ==== Sys2Proof/Machine/Observe.lean ====
section
/-! DEFINITION. What the host reads between commands. Each is a function of the state and changes nothing
(20_memory.md R37). The host reads no other part: `TABLE` is not readable (10_state.md R12). -/

namespace Sys2Proof.Machine

/-- The four readable registers (10_state.md R16, R17, R18). -/
structure Observation where
  acc : Word64
  result : Word64
  decLen : BitVec 5
  decDigits : Vector Byte 20
deriving DecidableEq, Repr

/-- The host's reads of the registers (20_memory.md R37). -/
def State.observe (s : State) : Observation := ⟨s.acc, s.result, s.decLen, s.decDigits⟩

/-- The text as the host reads it: exactly `DEC_LEN` bytes of `DEC_DIGITS` (42_decimal.md R88). -/
def State.text (s : State) : List Byte := s.decDigits.toList.take s.decLen.toNat

end Sys2Proof.Machine
end

