-- ==== Sys2Proof/Machine/Protocol.lean ====
section
/-! DEFINITION. From the source's operations to streams of commands (30_encoding.md R54): what a host sends for one
checksum, and how commands stand in the host's list of events. -/

namespace Sys2Proof.Machine

/-- `INIT; UPDATE b0; ..; UPDATE bn-1; FINAL` (30_encoding.md R54). -/
def checksumCommands (bytes : List Byte) : List Instr := .init :: (bytes.map Instr.update ++ [.final])

/-- A word presented with no reset. -/
def HostEvent.ofWord (cw : CommandWord) : HostEvent := { reset := false, word := some cw }

/-- The events of a stream of commands, one word each, in order (30_encoding.md R55). -/
def eventsOf (cs : List Instr) : List HostEvent := cs.map fun i => HostEvent.ofWord (encode i)

end Sys2Proof.Machine
end

