-- ==== Sys2Proof/Safety.lean ====
section
/-! DEFINITION. The terms claims use. Every run of the engine is safe in the sense of having no fault and no refusal
(60_exceptions.md R98), so what is worth saying of a run is what its registers hold: the text invariant (10_state.md R19)
and the history of the computations so far (10_state.md R15, 70_reset_and_hazards.md R115). -/

namespace Sys2Proof.Machine

/-- `k` steps of the machine. -/
def run (k : Nat) (s : State) : Host.Outcome State Fault Refusal := Host.Core.run Sys2Proof.core k s

/-- The invariant of 10_state.md R19: `(DEC_LEN, DEC_DIGITS)` is the encoding of `dec(RESULT)`. -/
abbrev State.textMatchesResult (s : State) : Prop :=
  s.decLen = textLen (dec s.result) ∧ s.decDigits = textDigits (dec s.result)

/-- What a host remembers of its own commands: the bytes of the computation in progress and those of the last one that
ended (a computation "ends at its `FINAL`", 70_reset_and_hazards.md R115). -/
structure History where
  current : List Byte
  completed : List Byte
deriving DecidableEq, Repr

/-- After reset: nothing folded, and the result shown is that of the empty sequence (70_reset_and_hazards.md R105). -/
def History.start : History := ⟨[], []⟩

/-- The lifecycle of 10_state.md R15: `INIT` creates, `UPDATE` adds a byte, `FINAL` ends the computation and creates the
next. -/
def History.command (h : History) : Instr → History
  | .nop => h
  | .init => { h with current := [] }
  | .update b => { h with current := h.current ++ [b] }
  | .final => { current := [], completed := h.current }

/-- A reserved word leaves no trace (30_encoding.md R49). -/
def History.word (h : History) (cw : CommandWord) : History :=
  match decode cw with
  | .command i => h.command i
  | .reserved _ => h

/-- Reset wins over a word (60_exceptions.md R92), and that word is gone with the event (the MODEL's choice, log entry 4,
DEDUCED); a pause leaves no trace (log entry 2, DEDUCED). -/
def History.event (h : History) (e : HostEvent) : History :=
  if e.reset then History.start
  else match e.word with
    | none => h
    | some cw => h.word cw

/-- The history after a list of events. -/
def History.events (h : History) (es : List HostEvent) : History := es.foldl History.event h

/-- The registers are what the history says: "`ACC = foldl fold all-ones (bytes so far)`", "`RESULT = crc64(bytes)`, text
`= checksum(bytes)`" (70_reset_and_hazards.md R115). -/
def State.records (s : State) (h : History) : Prop :=
  s.acc = foldBytes Config.initAcc h.current ∧ s.result = crc64 h.completed ∧
  s.decLen = textLen (checksum h.completed) ∧ s.decDigits = textDigits (checksum h.completed)

/-- What may stand between the words of a computation without touching it: a pause, a `NOP`, a reserved word
(41_engine.md R79). -/
def HostEvent.idle (e : HostEvent) : Bool :=
  !e.reset && match e.word with
    | none => true
    | some cw => match decode cw with
      | .command i => decide (i = .nop)
      | .reserved _ => true

end Sys2Proof.Machine
end

