-- ==== Sys2Proof/WellFormed.lean ====
section
/-! DEFINITION. What is well formed. Every term of `Instr` is (its one operand is a byte by type, and 30_encoding.md R48
admits every byte), so the checks are on command words and on streams of them: 30_encoding.md R49 asks that a
well-formedness check over programs name the reserved words. They are read off the mask and match columns of the opcode
table (R47), apart from the decoder, which follows R50. A reserved word is ill-formed in a program, but the machine still
runs it (R49: it is discarded). -/

namespace Sys2Proof

/-- One row of spec/opcode_table.json: a word `cw` selects it when `cw and mask = match` (30_encoding.md R47). -/
structure OpcodeRow where
  mnemonic : String
  pattern : CommandWord
  mask : CommandWord
deriving DecidableEq, Repr

/-- The row of each command (30_encoding.md R47, spec/opcode_table.json). -/
def Instr.row : Instr → OpcodeRow
  | .nop => ⟨"NOP", 0x0000#16, 0xFFFF#16⟩
  | .init => ⟨"INIT", 0x0100#16, 0xFFFF#16⟩
  | .update _ => ⟨"UPDATE", 0x0200#16, 0xFF00#16⟩
  | .final => ⟨"FINAL", 0x0300#16, 0xFFFF#16⟩

/-- The opcode table, in the order of the opcode numbers (30_encoding.md R47). -/
def opcodeTable : List OpcodeRow :=
  [Instr.nop.row, Instr.init.row, (Instr.update 0).row, Instr.final.row]

/-- `cw and mask = match` (30_encoding.md R47). -/
def OpcodeRow.selects (r : OpcodeRow) (cw : CommandWord) : Bool := (cw &&& r.mask) == r.pattern

/-- The word is one of the 259 defined words; otherwise it is reserved (30_encoding.md R47, R49). -/
def wellFormedWord (cw : CommandWord) : Bool := opcodeTable.any (·.selects cw)

/-- The reserved words of a stream with their positions: "a well-formedness check over programs should in either case
name reserved words as such" (30_encoding.md R49). -/
def reservedWords (ws : List CommandWord) : List (CommandWord × Nat) :=
  ws.zipIdx.filter (fun p => !wellFormedWord p.1)

/-- A stream a correct host sends: no reserved word in it (30_encoding.md R49). -/
def wellFormedStream (ws : List CommandWord) : Bool := ws.all wellFormedWord

/-- `N_ENGINES` is a positive integer (00_scope.md R6). -/
def wellFormedEngineCount (n : Nat) : Bool := decide (0 < n)

end Sys2Proof
end

