-- ==== Sys2Proof/Certificates/Slice0/Obligations.lean ====
section
/-! DEFINITION. The statements for the provers. Each docstring names the rule of the spec it formalises, and says where a
clause is the spec's own inference ("derived") or the model's choice (with its log entry). -/

open Sys2Proof Sys2Proof.Machine

/-! ### Reset, the port and the step -/

/-- 10_state.md R26: the reset state, and the constants it does not touch. -/
def Obligations.ResetGivesEveryRegisterItsValue : Prop :=
  State.reset.acc = 0xFFFFFFFFFFFFFFFF#64 ∧ State.reset.result = 0x0000000000000000#64 ∧
  State.reset.decLen = 1#5 ∧ State.reset.decDigits[0] = 0x30#8 ∧
  (∀ k : Fin 20, k ≠ 0 → State.reset.decDigits[k] = 0x00#8) ∧
  finalize State.reset.acc = State.reset.result ∧ State.reset.textMatchesResult ∧
  Config.poly = 0x42F0E1EBA9EA3693#64 ∧ ∀ i : Byte, tableListing[i.toNat]? = some (readTable i)

/-- 70_reset_and_hazards.md R105: a reset event sets every register from any state, whatever word is presented with it,
and after a reset with no word beside it the engine is ready for `UPDATE` at once. -/
def Obligations.ResetEventSetsEveryRegister : Prop :=
  (∀ (s : State) (e : HostEvent) (rest : List HostEvent), s.inbox = e :: rest → e.reset = true →
    ∃ t, step s = .next t ∧ t.acc = 0xFFFFFFFFFFFFFFFF#64 ∧ t.result = 0#64 ∧ t.decLen = 1#5 ∧
      t.decDigits[0] = 0x30#8 ∧ (∀ k : Fin 20, k ≠ 0 → t.decDigits[k] = 0x00#8) ∧
      exec .init t = .next t ∧ t.result = crc64 [] ∧ t.text = checksum []) ∧
  ∀ (s : State) (e : HostEvent) (b : Byte) (rest : List HostEvent),
    s.inbox = e :: HostEvent.ofWord (encode (.update b)) :: rest → e.reset = true → e.word = none →
    ∃ u, run 2 s = .next u ∧ u.acc = fold 0xFFFFFFFFFFFFFFFF#64 b

/-- The MODEL's choice (log entry 4, DEDUCED from 60_exceptions.md R92): the word presented with a reset is gone with the
event, and what the host presents later stays, so that an `UPDATE b` presented after it is the next command to run. -/
def Obligations.ResetDropsTheWordPresentedWithIt : Prop :=
  (∀ (s : State) (e : HostEvent) (rest : List HostEvent), s.inbox = e :: rest → e.reset = true →
    ∃ t, step s = .next t ∧ t.inbox = rest ∧ t.observe = State.reset.observe) ∧
  ∀ (s : State) (e : HostEvent) (b : Byte) (rest : List HostEvent),
    s.inbox = e :: HostEvent.ofWord (encode (.update b)) :: rest → e.reset = true →
    ∃ u, run 2 s = .next u ∧ u.acc = fold 0xFFFFFFFFFFFFFFFF#64 b ∧ u.inbox = rest

/-- "Between accepted words the state does not change" (30_encoding.md R55): a host that presents nothing changes no
register. That the step of an empty list stands still is the MODEL's choice (log entry 2). -/
def Obligations.PauseChangesNothing : Prop :=
  (∀ s : State, s.inbox = [] → step s = .next s) ∧
  ∀ (s : State) (rest : List HostEvent), s.inbox = { reset := false, word := none } :: rest →
    step s = .next { s with inbox := rest }

/-- A step runs the command its word decodes to (30_encoding.md R55, 20_memory.md R39), on the state whose list of events
is one shorter (the MODEL's `inbox`, log entry 1). -/
def Obligations.StepRunsTheDecodedCommand : Prop :=
  ∀ (s : State) (cw : CommandWord) (rest : List HostEvent) (i : Instr),
    s.inbox = HostEvent.ofWord cw :: rest → decode cw = .command i →
    step s = exec i { s with inbox := rest }

/-- The word of an opcode-table number, presented next, is what the next step runs (the MODEL's loading, log entries 3
and 10). -/
def Obligations.FetchWordIsRunNext : Prop :=
  ∀ (s : State) (nbits w : Nat) (i : Instr), decodeTableWord nbits w = some i →
    step (s.withFetchWord nbits w) = exec i s

/-- 30_encoding.md R49: a reserved word (one that selects no row of the opcode table) is accepted, changes no register,
and does what `NOP` does. -/
def Obligations.ReservedWordIsDiscarded : Prop :=
  ∀ (s : State) (cw : CommandWord) (rest : List HostEvent),
    wellFormedWord cw = false → s.inbox = HostEvent.ofWord cw :: rest →
    ∃ t, step s = .next t ∧ t.observe = s.observe ∧
      step { s with inbox := HostEvent.ofWord (encode .nop) :: rest } = .next t

/-- 60_exceptions.md R90: every command, every reserved word and every step has a next state, from every state; there is
no fault. -/
def Obligations.EveryCommandHasOneSuccessor : Prop :=
  (∀ (i : Instr) (s : State), ∃ t, exec i s = .next t ∧ ∀ u, exec i s = .next u → u = t) ∧
  (∀ (cw : CommandWord) (why : Reserved) (s : State), decode cw = .reserved why → acceptWord cw s = .next s) ∧
  (∀ s : State, ∃ t, step s = .next t) ∧ ∀ _ : Fault, False

/-! ### Encoding -/

/-- 30_encoding.md R47: the opcode map, with what each row does, the disjointness of the rows and the count of the defined
words. -/
def Obligations.OpcodeMapRowsAreDisjointAndActAsListed : Prop :=
  (∀ s : State,
    acceptWord 0x0000#16 s = .next s ∧
    acceptWord 0x0100#16 s = .next { s with acc := 0xFFFFFFFFFFFFFFFF#64 } ∧
    (∀ b : Byte, acceptWord (0x0200#16 + b.setWidth 16) s = .next { s with acc := fold s.acc b }) ∧
    acceptWord 0x0300#16 s = .next { s with
      acc := 0xFFFFFFFFFFFFFFFF#64, result := finalize s.acc,
      decLen := textLen (dec (finalize s.acc)), decDigits := textDigits (dec (finalize s.acc)) } ∧
    ∀ cw : CommandWord, cw ≠ 0x0000#16 → cw ≠ 0x0100#16 → cw &&& 0xFF00#16 ≠ 0x0200#16 → cw ≠ 0x0300#16 →
      acceptWord cw s = .next s) ∧
  opcodeTable = [⟨"NOP", 0x0000, 0xFFFF⟩, ⟨"INIT", 0x0100, 0xFFFF⟩, ⟨"UPDATE", 0x0200, 0xFF00⟩,
    ⟨"FINAL", 0x0300, 0xFFFF⟩] ∧
  (∀ cw : CommandWord, (decode cw).instr?.map Instr.row = opcodeTable.find? (·.selects cw)) ∧
  (∀ cw : CommandWord, (opcodeTable.filter (·.selects cw)).length ≤ 1) ∧
  ((List.range 65536).filter fun w => wellFormedWord (BitVec.ofNat 16 w)).length = 259

/-- 30_encoding.md R50 (derived there): decoding and encoding are inverse to each other, with the operand of `UPDATE` at
each of its 256 values. -/
def Obligations.DecodeAndEncodeAgree : Prop :=
  (∀ i : Instr, decode (encode i) = .command i) ∧
  ∀ (cw : CommandWord) (i : Instr), decode cw = .command i → encode i = cw

/-- The words of 95_test_vectors.md section 8, V80 to V91. -/
def Obligations.WrittenWordsDecodeAsListed : Prop :=
  decode 0x0000#16 = .command .nop ∧ decode 0x0100#16 = .command .init ∧
  decode 0x0200#16 = .command (.update 0x00) ∧ decode 0x0231#16 = .command (.update 0x31) ∧
  decode 0x02FF#16 = .command (.update 0xFF) ∧ decode 0x0300#16 = .command .final ∧
  decode 0x0001#16 = .reserved (.nonzeroArgument 0x00 0x01) ∧
  decode 0x0101#16 = .reserved (.nonzeroArgument 0x01 0x01) ∧
  decode 0x03FF#16 = .reserved (.nonzeroArgument 0x03 0xFF) ∧
  decode 0x0400#16 = .reserved (.unassignedOpcode 0x04) ∧
  decode 0xFFFF#16 = .reserved (.unassignedOpcode 0xFF) ∧
  decode 0x3102#16 = .reserved (.unassignedOpcode 0x31)

/-! ### Reflection and the table -/

/-- 40_table.md R60: bit `i` of the result is bit `w-1-i` of the value; nothing above the width; the worked example. -/
def Obligations.ReflectReversesTheLowBits : Prop :=
  (∀ (n : Nat) (v : BitVec n) (w i : Nat), i < w → (reflect v w).getLsbD i = v.getLsbD (w - 1 - i)) ∧
  (∀ (n : Nat) (v : BitVec n) (w i : Nat), w ≤ i → (reflect v w).getLsbD i = false) ∧
  (∀ (n : Nat) (u v : BitVec n) (w : Nat), (∀ i, i < w → u.getLsbD i = v.getLsbD i) → reflect u w = reflect v w) ∧
  reflect 0x31#8 8 = 0x8C#8

/-- 40_table.md R61 (derived there from R60), at every width. -/
def Obligations.ReflectIsALinearInvolution : Prop :=
  ∀ (w : Nat) (a c : BitVec w),
    reflect (reflect a w) w = a ∧ reflect (a ^^^ c) w = reflect a w ^^^ reflect c w ∧
    reflect (0#w) w = 0#w ∧ reflect (BitVec.allOnes w) w = BitVec.allOnes w ∧ reflect (~~~a) w = ~~~(reflect a w)

/-- 40_table.md R62: the construction of an entry, and its worked examples. -/
def Obligations.TableEntryIsEightReductionRounds : Prop :=
  (∀ i : Byte, readTable i =
    (fun w : Word64 => if w.getLsbD 63 then (w <<< 1) ^^^ 0x42F0E1EBA9EA3693#64 else w <<< 1)^[8]
      (i.setWidth 64 <<< 56)) ∧
  readTable 0 = 0#64 ∧ readTable 1 = 0x42F0E1EBA9EA3693#64 ∧ readTable 2 = 0x85E1C3D753D46D26#64 ∧
  readTable 0x80 = 0xF6FAE5C07D3274CD#64 ∧ readTable 0xFF = 0x9AFCE626CE85B507#64

/-- 40_table.md R67 (derived there): the listing of the 256 entries is what R62 computes. -/
def Obligations.TableListingIsTheComputedTable : Prop :=
  tableListing.length = 256 ∧ ∀ i : Byte, tableListing[i.toNat]? = some (tableEntry i)

/-- 40_table.md R64 (a) to (d) (derived there): the table is GF(2)-linear, and doubling an index is one more round. -/
def Obligations.TableIsLinear : Prop :=
  tableEntry 0 = 0#64 ∧ tableEntry 1 = Config.poly ∧
  (∀ a c : Byte, tableEntry (a ^^^ c) = tableEntry a ^^^ tableEntry c) ∧
  ∀ i : Byte, i.toNat < 128 → tableEntry (i + i) = polyStep (tableEntry i)

/-- 40_table.md R64 (e), (f) (derived there): the low bytes of the entries are pairwise distinct; the XOR and the sum of
all entries. -/
def Obligations.TableEntriesAreDistinctAndSumAsListed : Prop :=
  (∀ a c : Byte, (tableEntry a).setWidth 8 = (tableEntry c).setWidth 8 → a = c) ∧
  ((List.range 256).map fun i => tableEntry (BitVec.ofNat 8 i)).foldl (· ^^^ ·) 0#64 = 0#64 ∧
  ((List.range 256).map fun i => tableEntry (BitVec.ofNat 8 i)).foldl (· + ·) 0#64 = 0xFFFFFFFFFFFFFF80#64

/-- 40_table.md R65 (derived there): `TREF(i) = reflect64(T(reflect8(i)))`, `T41(i) = T(reflect8(i)) =
reflect64(TREF(i))`, and the engine that stores `T41` cannot be told apart. -/
def Obligations.AlternativeTablesGiveTheSameFold : Prop :=
  (∀ i : Byte, tableRef i = reflect64 (tableEntry (reflect8 i))) ∧
  (∀ i : Byte, table41 i = tableEntry (reflect8 i) ∧ table41 i = reflect64 (tableRef i)) ∧
  (∀ t b : Byte, table41 (reflect8 t ^^^ b) = tableEntry (t ^^^ reflect8 b)) ∧
  (∀ (s : Word64) (b : Byte), fold41 s b = fold s b) ∧
  polyReflected = 0xC96C5795D7870F42#64 ∧ tableRef 1 = 0xB32E4CBE03A75F6F#64 ∧
  tableRef 0x80 = 0xC96C5795D7870F42#64 ∧ table41 1 = 0xF6FAE5C07D3274CD#64 ∧ table41 0x80 = 0x42F0E1EBA9EA3693#64

/-- A bit vector read as a polynomial over GF(2), bit `k` the coefficient of x^k (40_table.md R64). Only the two statements
below use it. -/
noncomputable def Sys2Proof.gf2 {n : Nat} (v : BitVec n) : Polynomial (ZMod 2) :=
  ∑ k ∈ Finset.range n, if v.getLsbD k then Polynomial.X ^ k else 0

/-- 40_table.md R64 (derived there): `T(i) = (i(x) x^64) mod G` with `G = x^64 + POLY(x)`. -/
def Obligations.TableEntryIsPolynomialRemainder : Prop :=
  ∀ i : Byte, gf2 (tableEntry i) =
    (gf2 i * Polynomial.X ^ 64) %ₘ (Polynomial.X ^ 64 + gf2 Config.poly)

/-- The accumulator after a message is the remainder of the message's polynomial (from 40_table.md R64 and 41_engine.md
R70; the reading of words as polynomials is the spec's general knowledge G3): folding `n` bytes multiplies the accumulator
by x^(8n) and adds the reflected bytes, first byte highest, times x^64, modulo `G`. -/
def Obligations.FoldedMessageIsPolynomialRemainder : Prop :=
  ∀ (s : Word64) (bytes : List Byte), gf2 (foldBytes s bytes) =
    (gf2 s * Polynomial.X ^ (8 * bytes.length) +
      bytes.foldl (fun p b => p * Polynomial.X ^ 8 + gf2 (reflect8 b)) 0 * Polynomial.X ^ 64) %ₘ
      (Polynomial.X ^ 64 + gf2 Config.poly)

/-! ### The fold and the whole function -/

/-- 41_engine.md R70: the fold, and its worked example. -/
def Obligations.FoldIsOneTableRead : Prop :=
  (∀ (s : Word64) (b : Byte),
    fold s b = readTable (s.extractLsb' 56 8 ^^^ reflect8 b) ^^^ (s <<< 8)) ∧
  reflect8 0x31 = 0x8C#8 ∧ tableIndex 0xFFFFFFFFFFFFFFFF 0x31 = 0x73#8 ∧ readTable 0x73 = 0xB753A929A170F4AB#64 ∧
  fold 0xFFFFFFFFFFFFFFFF 0x31 = 0x48AC56D65E8F0BAB#64

/-- 41_engine.md R80 (derived there): the table-driven fold is eight single-bit steps, bit 0 of the byte first. -/
def Obligations.FoldEqualsBitSerialForm : Prop :=
  ∀ (s : Word64) (b : Byte), fold s b = foldBits s b

/-- 41_engine.md R80 (derived there): the fold is GF(2)-linear in both arguments jointly. -/
def Obligations.FoldIsJointlyLinear : Prop :=
  ∀ (s s' : Word64) (b b' : Byte), fold (s ^^^ s') (b ^^^ b') = fold s b ^^^ fold s' b'

/-- 41_engine.md R81 (a), (b) (derived there): for a fixed accumulator the fold is injective in the byte, for a fixed byte
it is a bijection of the accumulator. -/
def Obligations.FoldLosesNothing : Prop :=
  (∀ s : Word64, Function.Injective (fold s)) ∧ ∀ b : Byte, Function.Bijective fun s : Word64 => fold s b

/-- 41_engine.md R81 (d) (derived there): two messages of equal length that differ in exactly one position have different
checksums; `"a"` and `"b"` with their values. -/
def Obligations.OneChangedByteChangesTheChecksum : Prop :=
  (∀ (x y : List Byte) (a c : Byte), a ≠ c → crc64 (x ++ a :: y) ≠ crc64 (x ++ c :: y)) ∧
  crc64 [0x61] = 0x330284772E652B05#64 ∧ crc64 [0x62] = 0x74A8FE9E8582D431#64

/-- 41_engine.md R81 (e) (derived there): the checksum is affine for messages of one length. -/
def Obligations.ChecksumOfThreeXoredMessages : Prop :=
  ∀ x y z : List Byte, x.length = y.length → y.length = z.length →
    crc64 x ^^^ crc64 y ^^^ crc64 z =
      crc64 (List.zipWith (· ^^^ ·) (List.zipWith (· ^^^ ·) x y) z)

/-- 41_engine.md R82 (derived there): the least-significant-bit-first form computes the same accumulator, reflected. -/
def Obligations.LsbFirstFormIsEquivalent : Prop :=
  (∀ (s : Word64) (b : Byte), reflect64 (fold s b) = foldRef (reflect64 s) b) ∧
  reflect64 Config.initAcc = 0xFFFFFFFFFFFFFFFF#64 ∧ (∀ s : Word64, finalize s = ~~~(reflect64 s)) ∧
  ∀ bytes : List Byte, crc64 bytes = ~~~(bytes.foldl foldRef 0xFFFFFFFFFFFFFFFF#64)

/-- 41_engine.md R71: finalisation, a bijection that is its own inverse; the worked example. -/
def Obligations.FinalizeReflectsThenComplements : Prop :=
  (∀ s : Word64, finalize s = reflect64 s ^^^ 0xFFFFFFFFFFFFFFFF#64) ∧
  (∀ s : Word64, finalize (finalize s) = s) ∧ Function.Bijective finalize ∧
  reflect64 0xA0636704226C4566 = 0x66A2364420E6C605#64 ∧ finalize 0xA0636704226C4566 = 0x995DC9BBDF1939FA#64

/-- 41_engine.md R71 (the derived clause): `finalize(s) = not reflect64(s) = reflect64(not s)`, bit by bit. -/
def Obligations.FinalizeEquivalentForms : Prop :=
  ∀ s : Word64, finalize s = ~~~(reflect64 s) ∧ finalize s = reflect64 (~~~s) ∧
    ∀ i, i < 64 → (finalize s).getLsbD i = !(s.getLsbD (63 - i))

/-- 41_engine.md R72: `crc64` of every finite byte sequence, and the worked example. -/
def Obligations.ChecksumFoldsThenFinalizes : Prop :=
  (∀ bytes : List Byte, crc64 bytes = reflect64 (bytes.foldl fold 0xFFFFFFFFFFFFFFFF#64) ^^^ 0xFFFFFFFFFFFFFFFF#64) ∧
  crc64 [0x31, 0x32, 0x33, 0x34, 0x35, 0x36, 0x37, 0x38, 0x39] = 0x995DC9BBDF1939FA#64

/-- 41_engine.md R73: the empty input at the function level and, after reset or `INIT`, at the command level. -/
def Obligations.EmptyInputGivesZero : Prop :=
  crc64 [] = 0#64 ∧ reflect64 0xFFFFFFFFFFFFFFFF = 0xFFFFFFFFFFFFFFFF#64 ∧ finalize 0xFFFFFFFFFFFFFFFF = 0#64 ∧
  State.reset.acc = 0xFFFFFFFFFFFFFFFF#64 ∧
  (∃ t, exec .final State.reset = .next t ∧ t.result = 0#64 ∧ t.text = [0x30#8]) ∧
  ∀ s : State, ∃ t u, exec .init s = .next t ∧ t.acc = 0xFFFFFFFFFFFFFFFF#64 ∧
    exec .final t = .next u ∧ u.result = 0#64 ∧ u.text = [0x30#8]

/-! ### The decimal text -/

/-- 42_decimal.md R85: the text is the shortest base-10 numeral of the value. -/
def Obligations.DecIsTheShortestNumeral : Prop :=
  let value (text : List Byte) : Nat := text.foldl (fun n c => 10 * n + (c.toNat - 0x30)) 0
  let isDigit (c : Byte) : Prop := 0x30 ≤ c.toNat ∧ c.toNat ≤ 0x39
  (∀ v : Word64, (∀ c ∈ dec v, isDigit c) ∧ value (dec v) = v.toNat ∧
    1 ≤ (dec v).length ∧ (dec v).length ≤ 20 ∧ ((dec v).head? = some 0x30#8 ↔ v = 0)) ∧
  (∀ (v : Word64) (text : List Byte), text ≠ [] → (∀ c ∈ text, isDigit c) → value text = v.toNat →
    (dec v).length ≤ text.length ∧ (text.length = (dec v).length → text = dec v)) ∧
  dec 0 = [0x30#8] ∧
  dec 0x995DC9BBDF1939FA = [0x31, 0x31, 0x30, 0x35, 0x31, 0x32, 0x31, 0x30, 0x38, 0x36, 0x39, 0x33, 0x37, 0x36, 0x31,
    0x30, 0x34, 0x39, 0x35, 0x34]

/-- 42_decimal.md R89 (the derived clause): different values have different texts, so equal checksum texts are equal
checksums. -/
def Obligations.TextDeterminesTheValue : Prop :=
  (∀ u v : Word64, dec u = dec v → u = v) ∧ ∀ x y : List Byte, checksum x = checksum y ↔ crc64 x = crc64 y

/-- The values 42_decimal.md R89 gives for the one operation of the core. -/
def Obligations.ChecksumTextOfTheCheckVector : Prop :=
  (∀ bytes : List Byte, checksum bytes = dec (crc64 bytes)) ∧ checksum [] = [0x30#8] ∧
  checksum [0x31, 0x32, 0x33, 0x34, 0x35, 0x36, 0x37, 0x38, 0x39] =
    [0x31, 0x31, 0x30, 0x35, 0x31, 0x32, 0x31, 0x30, 0x38, 0x36, 0x39, 0x33, 0x37, 0x36, 0x31, 0x30, 0x34, 0x39, 0x35,
      0x34]

/-- 42_decimal.md R88: the registers `FINAL` writes the text to, left-aligned and padded with `0x00`, and what the host
reads of them; the three examples. -/
def Obligations.FinalWritesTheTextLeftAligned : Prop :=
  (∀ s : State, ∃ t, exec .final s = .next t ∧ t.decLen.toNat = (dec (finalize s.acc)).length ∧
    (∀ k : Fin 20, t.decDigits[k] =
      if h : k.val < (dec (finalize s.acc)).length then (dec (finalize s.acc))[k.val] else 0x00#8) ∧
    t.text = dec (finalize s.acc)) ∧
  textLen (dec 0) = 1#5 ∧ (textDigits (dec 0)).toList = 0x30#8 :: List.replicate 19 0x00#8 ∧
  textLen (dec 0x995DC9BBDF1939FA) = 20#5 ∧
  (textDigits (dec 0x995DC9BBDF1939FA)).toList = [0x31, 0x31, 0x30, 0x35, 0x31, 0x32, 0x31, 0x30, 0x38, 0x36, 0x39, 0x33,
    0x37, 0x36, 0x31, 0x30, 0x34, 0x39, 0x35, 0x34] ∧
  textLen (dec 0x0000594A29F0BB30) = 14#5 ∧
  (textDigits (dec 0x0000594A29F0BB30)).toList = [0x39, 0x38, 0x31, 0x37, 0x35, 0x30, 0x36, 0x36, 0x30, 0x39, 0x34, 0x33,
    0x38, 0x34, 0, 0, 0, 0, 0, 0]

/-- 10_state.md R19 (derived there): every step keeps the invariant that the text is the encoding of `dec(RESULT)`. -/
def Obligations.EveryStepKeepsTextEqualToResult : Prop :=
  ∀ s t : State, s.textMatchesResult → step s = .next t → t.textMatchesResult

/-- The invariant of 10_state.md R19 holds right after reset. -/
def Obligations.ResetTextEqualsResult : Prop := State.reset.textMatchesResult

/-- 10_state.md R18, of every state that meets the invariant of R19: `DEC_LEN` is 1..20, the bytes below it are digits,
those from it up are `0x00`, and the text the host reads is `dec(RESULT)`. -/
def Obligations.TextRegistersHaveTheirShape : Prop :=
  ∀ s : State, s.textMatchesResult →
    1 ≤ s.decLen.toNat ∧ s.decLen.toNat ≤ 20 ∧ s.text = dec s.result ∧
    ∀ k : Fin 20,
      (k.val < s.decLen.toNat → 0x30 ≤ s.decDigits[k].toNat ∧ s.decDigits[k].toNat ≤ 0x39) ∧
      (s.decLen.toNat ≤ k.val → s.decDigits[k] = 0x00#8)

/-! ### The commands -/

/-- 41_engine.md R74: `NOP` completes from every state and leaves all of it unchanged; its word. -/
def Obligations.NopLeavesTheStateUnchanged : Prop :=
  decode 0x0000#16 = .command .nop ∧ (∀ s : State, exec .nop s = .next s) ∧
  ∀ (s : State) (k : Nat) (rest : List HostEvent),
    s.inbox = List.replicate k (HostEvent.ofWord 0x0000#16) ++ rest → run k s = .next { s with inbox := rest }

/-- 41_engine.md R75: `INIT` completes from every state with `ACC` all-ones and every other register unchanged; its word;
it is idempotent. -/
def Obligations.InitSetsTheAccumulatorOnly : Prop :=
  decode 0x0100#16 = .command .init ∧
  (∀ s : State, exec .init s = .next { s with acc := 0xFFFFFFFFFFFFFFFF#64 }) ∧
  (∀ s t : State, exec .init s = .next t → exec .init t = .next t) ∧
  ∀ s : State, s.acc = 0xFFFFFFFFFFFFFFFF#64 → exec .init s = .next s

/-- 41_engine.md R76: `UPDATE b` completes from every state for every byte, with `ACC` folded and every other register
unchanged; its word; its corner cases and its example. -/
def Obligations.UpdateFoldsOneByteOnly : Prop :=
  (∀ b : Byte, decode (0x0200#16 + b.setWidth 16) = .command (.update b)) ∧
  (∀ (s : State) (b : Byte), exec (.update b) s = .next { s with
    acc := readTable (s.acc.extractLsb' 56 8 ^^^ reflect8 b) ^^^ (s.acc <<< 8) }) ∧
  (∀ (s : State), s.acc = 0xFFFFFFFFFFFFFFFF#64 →
    exec (.update 0x00) s = .next { s with acc := 0x650319D9317A4A07#64 } ∧
    exec (.update 0xFF) s = .next { s with acc := 0xFFFFFFFFFFFFFF00#64 } ∧
    exec (.update 0x31) s = .next { s with acc := 0x48AC56D65E8F0BAB#64 }) ∧
  (∀ s : State, s.acc = 0#64 → exec (.update 0x00) s = .next s) ∧
  foldBytes 0xFFFFFFFFFFFFFFFF (List.replicate 8 0xFF#8) = 0#64

/-- 41_engine.md R77: `FINAL` completes from every state with the result of the old `ACC`, its text, and `ACC` all-ones;
its word; its corner cases and its example. -/
def Obligations.FinalProducesResultTextAndFreshAccumulator : Prop :=
  decode 0x0300#16 = .command .final ∧
  (∀ s : State, exec .final s = .next { s with
    result := reflect64 s.acc ^^^ 0xFFFFFFFFFFFFFFFF#64,
    decLen := textLen (dec (reflect64 s.acc ^^^ 0xFFFFFFFFFFFFFFFF#64)),
    decDigits := textDigits (dec (reflect64 s.acc ^^^ 0xFFFFFFFFFFFFFFFF#64)),
    acc := 0xFFFFFFFFFFFFFFFF#64 }) ∧
  (∀ s : State, ∃ t u, exec .final s = .next t ∧ exec .final t = .next u ∧ u.result = 0#64 ∧ u.text = [0x30#8]) ∧
  (∀ s : State, s.acc = 0#64 → ∃ t, exec .final s = .next t ∧ t.result = 0xFFFFFFFFFFFFFFFF#64 ∧ t.decLen = 20#5 ∧
    t.text = [0x31, 0x38, 0x34, 0x34, 0x36, 0x37, 0x34, 0x34, 0x30, 0x37, 0x33, 0x37, 0x30, 0x39, 0x35, 0x35, 0x31,
      0x36, 0x31, 0x35]) ∧
  ∀ s : State, s.acc = 0xA0636704226C4566#64 → ∃ t, exec .final s = .next t ∧ t.result = 0x995DC9BBDF1939FA#64 ∧
    t.decLen = 20#5 ∧ t.acc = 0xFFFFFFFFFFFFFFFF#64 ∧
    t.text = [0x31, 0x31, 0x30, 0x35, 0x31, 0x32, 0x31, 0x30, 0x38, 0x36, 0x39, 0x33, 0x37, 0x36, 0x31, 0x30, 0x34,
      0x39, 0x35, 0x34]

/-- The frame of all four commands (10_state.md R14, R17, R18): `NOP` changes nothing; `INIT` and `UPDATE` change `ACC`
only; `FINAL` changes `ACC`, `RESULT`, `DEC_LEN`, `DEC_DIGITS`; none touches the host's list (the MODEL's `inbox`). -/
def Obligations.CommandsChangeOnlyTheirRegisters : Prop :=
  ∀ (i : Instr) (s t : State), exec i s = .next t →
    t.inbox = s.inbox ∧ (i = .nop → t.acc = s.acc) ∧
    (i ≠ .final → t.result = s.result ∧ t.decLen = s.decLen ∧ t.decDigits = s.decDigits)

/-- 10_state.md R14, of every step: who writes `ACC`, and what; of the commands, `NOP` and `INIT` do not read it. -/
def Obligations.AccumulatorIsWrittenOnlyByItsWriters : Prop :=
  (∀ (s : State) (v : Word64), exec .init { s with acc := v } = exec .init s ∧
    exec .nop { s with acc := v } = .next { s with acc := v }) ∧
  ∀ s t : State, step s = .next t →
    (∀ e rest, s.inbox = e :: rest → e.reset = true → t.acc = 0xFFFFFFFFFFFFFFFF#64) ∧
    (∀ cw rest, s.inbox = HostEvent.ofWord cw :: rest → decode cw = .command .init → t.acc = 0xFFFFFFFFFFFFFFFF#64) ∧
    (∀ cw b rest, s.inbox = HostEvent.ofWord cw :: rest → decode cw = .command (.update b) → t.acc = fold s.acc b) ∧
    (∀ cw rest, s.inbox = HostEvent.ofWord cw :: rest → decode cw = .command .final → t.acc = 0xFFFFFFFFFFFFFFFF#64) ∧
    (t.acc ≠ s.acc → ∃ e rest, s.inbox = e :: rest ∧ (e.reset = true ∨
      ∃ cw i, e.word = some cw ∧ decode cw = .command i ∧ i ≠ .nop))

/-- 10_state.md R17 and R18, of every step: `RESULT`, `DEC_LEN` and `DEC_DIGITS` are written only by `FINAL` and reset,
together. -/
def Obligations.ResultIsWrittenOnlyByFinalAndReset : Prop :=
  ∀ s t : State, step s = .next t →
    (∀ cw rest, s.inbox = HostEvent.ofWord cw :: rest → decode cw = .command .final →
      t.result = finalize s.acc ∧ t.decLen = textLen (dec (finalize s.acc)) ∧
        t.decDigits = textDigits (dec (finalize s.acc))) ∧
    (∀ e rest, s.inbox = e :: rest → e.reset = true → t.result = 0#64 ∧ t.text = [0x30#8]) ∧
    ((t.result ≠ s.result ∨ t.decLen ≠ s.decLen ∨ t.decDigits ≠ s.decDigits) →
      ∃ e rest, s.inbox = e :: rest ∧ (e.reset = true ∨ ∃ cw, e.word = some cw ∧ decode cw = .command .final))

/-! ### Streams of commands -/

/-- Feeding (41_engine.md R79, 20_memory.md R31): a run of `UPDATE`s folds its bytes in order and touches nothing else,
and feeding two chunks one after the other is feeding their concatenation. -/
def Obligations.UpdatesFoldTheirBytesInOrder : Prop :=
  (∀ (s : State) (bytes : List Byte) (rest : List HostEvent),
    s.inbox = eventsOf (bytes.map Instr.update) ++ rest →
    run bytes.length s = .next { s with acc := foldBytes s.acc bytes, inbox := rest }) ∧
  ∀ (s : Word64) (x y : List Byte), foldBytes s (x ++ y) = foldBytes (foldBytes s x) y

/-- 30_encoding.md R54, last paragraph (derived there): from every state, `INIT; UPDATE ..; FINAL` ends with the checksum
of its bytes; the `INIT` may be left out when `ACC` is all-ones. -/
def Obligations.ComputationGivesTheChecksumFromEveryState : Prop :=
  (∀ (s : State) (bytes : List Byte) (rest : List HostEvent),
    s.inbox = eventsOf (checksumCommands bytes) ++ rest →
    ∃ t, run (bytes.length + 2) s = .next t ∧ t.result = crc64 bytes ∧ t.text = checksum bytes ∧
      t.acc = 0xFFFFFFFFFFFFFFFF#64 ∧ t.inbox = rest) ∧
  ∀ (s : State) (bytes : List Byte) (rest : List HostEvent), s.acc = 0xFFFFFFFFFFFFFFFF#64 →
    s.inbox = eventsOf (bytes.map Instr.update ++ [.final]) ++ rest →
    ∃ t, run (bytes.length + 1) s = .next t ∧ t.result = crc64 bytes ∧ t.text = checksum bytes ∧
      t.acc = 0xFFFFFFFFFFFFFFFF#64 ∧ t.inbox = rest

/-- Streaming equivalence at the command level (41_engine.md R79, derived there; 30_encoding.md R54): pauses, `NOP`s and
reserved words anywhere among the words of a computation leave its result and text as they are. That a pause is an event
that changes nothing is the MODEL's reading (log entry 2, DEDUCED). -/
def Obligations.StreamingWithIdleWordsGivesTheSameChecksum : Prop :=
  ∀ (s : State) (bytes : List Byte) (es rest : List HostEvent),
    es.filter (fun e => !e.idle) = eventsOf (checksumCommands bytes) → s.inbox = es ++ rest →
    ∃ t, run es.length s = .next t ∧ t.result = crc64 bytes ∧ t.text = checksum bytes ∧
      t.acc = 0xFFFFFFFFFFFFFFFF#64 ∧ t.inbox = rest

/-- The lifecycle of 10_state.md R15 and the guarantees of 70_reset_and_hazards.md R115, for EVERY sequence of events, a
correct host's or not: the registers are always those of the history of the bytes since the last creation and of the last
computation that ended. Where an event is a reset with a word presented beside it, the history has that word gone with the
event, which is the MODEL's choice (log entry 4, DEDUCED, unsafe); pauses are log entry 2, the list of events entry 1. -/
def Obligations.RegistersAreDeterminedByTheHistory : Prop :=
  ∀ (s : State) (h : History) (es rest : List HostEvent), s.records h → s.inbox = es ++ rest →
    ∃ t, run es.length s = .next t ∧ t.records (h.events es) ∧ t.inbox = rest

/-- The reset state is that of the empty history (70_reset_and_hazards.md R105). -/
def Obligations.ResetRecordsTheEmptyHistory : Prop := State.reset.records History.start

/-! ### Several instances -/

/-- 20_memory.md R40: the device is the plain product of its instances. For every interleaving, each instance ends where
its own steps alone would have brought it. (Schedules are the MODEL's form, log entry 7.) -/
def Obligations.DeviceIsTheProductOfItsInstances : Prop :=
  ∀ (n : Nat) (d : Device n) (ks : List (Fin n)), ∃ d', d.runSchedule ks = .next d' ∧
    ∀ k : Fin n, run (ks.count k) d.engines[k] = .next d'.engines[k]

/-- 10_state.md R27, 20_memory.md R40: two instances' steps commute and no third instance changes. -/
def Obligations.StepsOfDistinctInstancesCommute : Prop :=
  ∀ (n : Nat) (d : Device n) (j k : Fin n), j ≠ k →
    ∃ d', d.runSchedule [j, k] = .next d' ∧ d.runSchedule [k, j] = .next d' ∧
      ∀ m : Fin n, m ≠ j → m ≠ k → d'.engines[m] = d.engines[m]

/-- 00_scope.md R6: the default device, of one instance, is the machine of `step`. -/
def Obligations.DefaultDeviceIsTheMachine : Prop :=
  ∀ s : State, ∃ t, step s = .next t ∧ (Device.single s).stepAt 0 = .next (Device.single t)

/-! ### Assembler text -/

/-- 30_encoding.md R53: the expansions of the pseudo-instructions. -/
def Obligations.PseudoInstructionsExpandAsListed : Prop :=
  (∀ text : List Byte, (Asm.Line.updates text).expand = text.map fun b => encode (.update b)) ∧
  (Asm.Line.updates []).expand = [] ∧
  (∀ bytes : List Byte, (Asm.Line.updateB bytes).expand = bytes.map fun b => encode (.update b)) ∧
  ∀ text : List Byte, (Asm.Line.checksum text).expand =
    (Asm.Line.command .init).expand ++ (Asm.Line.updates text).expand ++ (Asm.Line.command .final).expand

/-- The text of a command or a word in the syntax of 30_encoding.md R52 is read back as that command or word (the printed
spelling and the reader's lexical details are the MODEL's, log entry 11). -/
def Obligations.AssemblerReadsBackWhatIsPrinted : Prop :=
  (∀ i : Instr, Asm.parseLine (Asm.printInstr i) = some (.command i)) ∧
  ∀ cw : CommandWord, Asm.parseLine (Asm.printWord cw) = some (.word cw)
end

