-- ==== Sys2Proof/Laws/Functions.lean ====
section
/-! SUPPORT. The defining equations of the recursive functions and the fields of an assembled command word. -/

namespace Sys2Proof.Machine

@[simp] theorem polySteps_zero (w : Word64) : polySteps 0 w = w := rfl
@[simp] theorem polySteps_succ (k : Nat) (w : Word64) : polySteps (k + 1) w = polySteps k (polyStep w) := rfl

@[simp] theorem polyStepsRight_zero (w : Word64) : polyStepsRight 0 w = w := rfl
@[simp] theorem polyStepsRight_succ (k : Nat) (w : Word64) :
    polyStepsRight (k + 1) w = polyStepsRight k (polyStepRight w) := rfl

@[simp] theorem reflectRounds_zero {n : Nat} (v : BitVec n) (w : Nat) : reflectRounds v w 0 = 0#w := rfl
theorem reflectRounds_succ {n : Nat} (v : BitVec n) (w i : Nat) :
    reflectRounds v w (i + 1) =
      if v.getLsbD i then reflectRounds v w i ||| BitVec.twoPow w (w - 1 - i) else reflectRounds v w i := rfl

@[simp] theorem foldBytes_nil (s : Word64) : foldBytes s [] = s := rfl
@[simp] theorem foldBytes_cons (s : Word64) (b : Byte) (bs : List Byte) :
    foldBytes s (b :: bs) = foldBytes (fold s b) bs := rfl
theorem foldBytes_append (s : Word64) (xs ys : List Byte) :
    foldBytes s (xs ++ ys) = foldBytes (foldBytes s xs) ys := List.foldl_append
/-- One more byte at the end of a message is one more fold of its accumulator. -/
theorem foldBytes_concat (s : Word64) (xs : List Byte) (b : Byte) :
    foldBytes s (xs ++ [b]) = fold (foldBytes s xs) b := foldBytes_append s xs [b]

theorem digitsFrom_succ (k t : Nat) :
    digitsFrom (k + 1) t = t % 10 :: if t / 10 = 0 then [] else digitsFrom k (t / 10) := rfl

theorem textDigits_getElem (text : List Byte) (k : Nat) (hk : k < 20) :
    (textDigits text)[k] = text.getD k 0 := by simp [textDigits]

@[simp] theorem opField_commandWord (op arg : Byte) : opField (commandWord op arg) = op := by
  apply BitVec.eq_of_toNat_eq
  have := op.isLt
  have := arg.isLt
  simp only [opField, commandWord, BitVec.extractLsb'_toNat, BitVec.toNat_ofNat, Nat.shiftRight_eq_div_pow]
  omega

@[simp] theorem argField_commandWord (op arg : Byte) : argField (commandWord op arg) = arg := by
  apply BitVec.eq_of_toNat_eq
  have := op.isLt
  have := arg.isLt
  simp only [argField, commandWord, BitVec.extractLsb'_toNat, BitVec.toNat_ofNat, Nat.shiftRight_zero]
  omega

/-- A command word is its two fields, and nothing else (30_encoding.md R46). -/
theorem commandWord_fields (cw : CommandWord) : commandWord (opField cw) (argField cw) = cw := by
  apply BitVec.eq_of_toNat_eq
  have := cw.isLt
  simp only [opField, argField, commandWord, BitVec.extractLsb'_toNat, BitVec.toNat_ofNat, Nat.shiftRight_eq_div_pow]
  omega

end Sys2Proof.Machine
end

