-- ==== Sys2Proof/Laws/Decode.lean ====
section
/-! SUPPORT. Command words by their two fields, and the rows of the opcode table in those terms. -/

namespace Sys2Proof

open Machine

/-- A word is given by its two fields. -/
theorem eq_commandWord_iff (cw : CommandWord) (op arg : Byte) :
    cw = commandWord op arg ↔ opField cw = op ∧ argField cw = arg := by
  constructor
  · rintro rfl
    simp
  · rintro ⟨rfl, rfl⟩
    exact (commandWord_fields cw).symm

/-- The mask of the row of `UPDATE` keeps the opcode field alone. -/
theorem and_highByte_eq_iff (cw : CommandWord) : cw &&& 0xFF00#16 = 0x0200#16 ↔ opField cw = 0x02#8 := by
  have h : cw &&& 0xFF00#16 = (cw >>> 8) <<< 8 := by
    ext i hi
    interval_cases i <;> simp
  have := cw.isLt
  rw [h, ← BitVec.toNat_inj, ← BitVec.toNat_inj]
  simp only [opField, BitVec.toNat_shiftLeft, BitVec.toNat_ushiftRight, BitVec.extractLsb'_toNat,
    Nat.shiftRight_eq_div_pow, Nat.shiftLeft_eq, BitVec.toNat_ofNat]
  omega

/-- A row with the full mask selects one word only. -/
theorem selects_fullMask (m : String) (op arg : Byte) (cw : CommandWord) :
    (OpcodeRow.mk m (commandWord op arg) 0xFFFF#16).selects cw = decide (opField cw = op ∧ argField cw = arg) := by
  have h := eq_commandWord_iff cw op arg
  simp only [OpcodeRow.selects, ← h]
  rw [show 0xFFFF#16 = BitVec.allOnes 16 from rfl, BitVec.and_allOnes]
  rfl

theorem nop_row_selects (cw : CommandWord) :
    Instr.nop.row.selects cw = decide (opField cw = 0x00#8 ∧ argField cw = 0x00#8) :=
  selects_fullMask "NOP" 0x00 0x00 cw
theorem init_row_selects (cw : CommandWord) :
    Instr.init.row.selects cw = decide (opField cw = 0x01#8 ∧ argField cw = 0x00#8) :=
  selects_fullMask "INIT" 0x01 0x00 cw
theorem final_row_selects (cw : CommandWord) :
    Instr.final.row.selects cw = decide (opField cw = 0x03#8 ∧ argField cw = 0x00#8) :=
  selects_fullMask "FINAL" 0x03 0x00 cw
theorem update_row_selects (b : Byte) (cw : CommandWord) :
    (Instr.update b).row.selects cw = decide (opField cw = 0x02#8) := by
  simp only [OpcodeRow.selects, Instr.row, ← and_highByte_eq_iff cw]
  rfl

end Sys2Proof
end

