-- ==== Sys2Proof/Laws/Device.lean ====
section
/-! SUPPORT. What one move of a device does: the instance named steps, the others stay. -/

namespace Sys2Proof.Machine

@[simp] theorem Device.reset_engines {n : Nat} (k : Fin n) : (Device.reset n).engines[k] = State.reset := by
  simp [Device.reset]

theorem Device.stepAt_of_step {n : Nat} {d : Device n} {k : Fin n} {t : State} (h : step d.engines[k] = .next t) :
    d.stepAt k = .next ⟨d.engines.set k t⟩ := by
  simp only [Device.stepAt, h]

end Sys2Proof.Machine
end

