-- ==== Sys2Proof/Laws/PerInstr.lean ====
section
/-! SUPPORT. Facts about each command as syntax, one lemma per constructor. -/

namespace Sys2Proof.Laws.TableRow

/-- The encoded word is selected by the command's row of the opcode table, and by no other row (30_encoding.md R47). -/
def Statement (i : Instr) : Prop := opcodeTable.filter (·.selects (encode i)) = [i.row]

theorem nop : Statement .nop := by unfold Statement; decide
theorem init : Statement .init := by unfold Statement; decide
theorem update (b : Byte) : Statement (.update b) := by
  unfold Statement
  revert b
  decide +revert
theorem final : Statement .final := by unfold Statement; decide

end Sys2Proof.Laws.TableRow
end

