-- ==== Sys2Proof/Laws/State.lean ====
section
/-! SUPPORT. What each update of the state leaves in each field, and what the host reads of it. -/

namespace Sys2Proof.Machine

variable (s : State) (v : Word64) (e : HostEvent) (why : Reserved)

@[simp] theorem State.writeAcc_acc : (s.writeAcc v).acc = v := rfl
@[simp] theorem State.writeAcc_result : (s.writeAcc v).result = s.result := rfl
@[simp] theorem State.writeAcc_decLen : (s.writeAcc v).decLen = s.decLen := rfl
@[simp] theorem State.writeAcc_decDigits : (s.writeAcc v).decDigits = s.decDigits := rfl
@[simp] theorem State.writeAcc_inbox : (s.writeAcc v).inbox = s.inbox := rfl

@[simp] theorem State.writeResult_acc : (s.writeResult v).acc = s.acc := rfl
@[simp] theorem State.writeResult_result : (s.writeResult v).result = v := rfl
@[simp] theorem State.writeResult_decLen : (s.writeResult v).decLen = textLen (dec v) := rfl
@[simp] theorem State.writeResult_decDigits : (s.writeResult v).decDigits = textDigits (dec v) := rfl
@[simp] theorem State.writeResult_inbox : (s.writeResult v).inbox = s.inbox := rfl

@[simp] theorem State.resetRegisters_acc : s.resetRegisters.acc = State.reset.acc := rfl
@[simp] theorem State.resetRegisters_result : s.resetRegisters.result = State.reset.result := rfl
@[simp] theorem State.resetRegisters_decLen : s.resetRegisters.decLen = State.reset.decLen := rfl
@[simp] theorem State.resetRegisters_decDigits : s.resetRegisters.decDigits = State.reset.decDigits := rfl
@[simp] theorem State.resetRegisters_inbox : s.resetRegisters.inbox = s.inbox := rfl

@[simp] theorem State.present_acc : (s.present e).acc = s.acc := rfl
@[simp] theorem State.present_result : (s.present e).result = s.result := rfl
@[simp] theorem State.present_decLen : (s.present e).decLen = s.decLen := rfl
@[simp] theorem State.present_decDigits : (s.present e).decDigits = s.decDigits := rfl
@[simp] theorem State.present_inbox : (s.present e).inbox = e :: s.inbox := rfl

@[simp] theorem State.discard_eq : s.discard why = s := rfl

@[simp] theorem State.observe_acc : s.observe.acc = s.acc := rfl
@[simp] theorem State.observe_result : s.observe.result = s.result := rfl
@[simp] theorem State.observe_decLen : s.observe.decLen = s.decLen := rfl
@[simp] theorem State.observe_decDigits : s.observe.decDigits = s.decDigits := rfl

end Sys2Proof.Machine
end

