-- ==== Sys2Proof/Laws/Step.lean ====
section
/-! SUPPORT. What each command, the port and the step can do, said once. -/

namespace Sys2Proof.Machine

@[simp] theorem exec_nop (s : State) : exec .nop s = .next s := rfl
@[simp] theorem exec_init (s : State) : exec .init s = .next (s.writeAcc Config.initAcc) := rfl
@[simp] theorem exec_update (b : Byte) (s : State) : exec (.update b) s = .next (s.writeAcc (fold s.acc b)) := rfl
@[simp] theorem exec_final (s : State) :
    exec .final s = .next ((s.writeResult (finalize s.acc)).writeAcc Config.initAcc) := rfl

theorem HostEvent.input_of_reset {e : HostEvent} (h : e.reset = true) : e.input = .reset := by simp [HostEvent.input, h]
@[simp] theorem HostEvent.input_pause : (HostEvent.mk false none).input = .pause := rfl
@[simp] theorem HostEvent.input_word (cw : CommandWord) : (HostEvent.mk false (some cw)).input = .word cw := rfl

theorem State.takeInput_nil {s : State} (h : s.inbox = []) : s.takeInput = (.pause, s) := by
  simp [State.takeInput, h]
theorem State.takeInput_cons {s : State} {e : HostEvent} {rest : List HostEvent} (h : s.inbox = e :: rest) :
    s.takeInput = (e.input, { s with inbox := rest }) := by simp [State.takeInput, h]

theorem acceptWord_command {cw : CommandWord} {i : Instr} (h : decode cw = .command i) (s : State) :
    acceptWord cw s = exec i s := by simp [acceptWord, h]
theorem acceptWord_reserved {cw : CommandWord} {why : Reserved} (h : decode cw = .reserved why) (s : State) :
    acceptWord cw s = .next s := by simp [acceptWord, h]

@[simp] theorem acceptInput_pause (s : State) : acceptInput .pause s = .next s := rfl
@[simp] theorem acceptInput_reset (s : State) : acceptInput .reset s = .next s.resetRegisters := rfl
@[simp] theorem acceptInput_word (cw : CommandWord) (s : State) : acceptInput (.word cw) s = acceptWord cw s := rfl

/-- Everything a step can do: stand still, take a pause, reset, discard a reserved word, or run a command. -/
theorem step_cases {s t : State} (h : step s = .next t) :
    (s.inbox = [] ∧ t = s) ∨
    ∃ e rest, s.inbox = e :: rest ∧
      ((e.input = .pause ∧ t = { s with inbox := rest }) ∨
       (e.input = .reset ∧ t = { State.reset with inbox := rest }) ∨
       (∃ cw why, e.input = .word cw ∧ decode cw = .reserved why ∧ t = { s with inbox := rest }) ∨
       ∃ cw i, e.input = .word cw ∧ decode cw = .command i ∧ exec i { s with inbox := rest } = .next t) := by
  unfold step at h
  cases hb : s.inbox with
  | nil =>
    rw [State.takeInput_nil hb] at h
    exact .inl ⟨rfl, by simpa using h.symm⟩
  | cons e rest =>
    refine .inr ⟨e, rest, rfl, ?_⟩
    rw [State.takeInput_cons hb] at h
    cases hp : e.input with
    | pause => exact .inl ⟨rfl, by simpa [hp] using h.symm⟩
    | reset => exact .inr (.inl ⟨rfl, by simpa [hp, State.resetRegisters] using h.symm⟩)
    | word cw =>
      simp only [hp, acceptInput_word] at h
      cases hd : decode cw with
      | reserved why =>
        rw [acceptWord_reserved hd] at h
        exact .inr (.inr (.inl ⟨cw, why, rfl, hd, by simpa using h.symm⟩))
      | command i =>
        rw [acceptWord_command hd] at h
        exact .inr (.inr (.inr ⟨cw, i, rfl, hd, h⟩))

@[simp] theorem run_zero (s : State) : run 0 s = .next s := rfl
/-- A run goes on from the state its first step gives. -/
theorem run_succ {s t : State} (k : Nat) (h : step s = .next t) : run (k + 1) s = run k t := by
  show Host.Core.run Sys2Proof.core (k + 1) s = _
  simp only [Host.Core.run, Sys2Proof.core] at *
  rw [h]
  rfl

end Sys2Proof.Machine
end

