-- ==== Sys2Proof/Laws/Table.lean ====
section
/-! SUPPORT. One round of the table's construction over GF(2): the rounds respect XOR. -/

namespace Sys2Proof.Machine

theorem polyStep_xor (a b : Word64) : polyStep (a ^^^ b) = polyStep a ^^^ polyStep b := by
  unfold polyStep
  rw [BitVec.getLsbD_xor, BitVec.shiftLeft_xor_distrib]
  cases a.getLsbD 63 <;> cases b.getLsbD 63
  · rfl
  · simp [BitVec.xor_assoc]
  · simp only [Bool.xor_false, if_true]
    rw [BitVec.xor_assoc, BitVec.xor_comm (b <<< 1), ← BitVec.xor_assoc]
    rfl
  · have h : a <<< 1 ^^^ Config.poly ^^^ (b <<< 1 ^^^ Config.poly) = a <<< 1 ^^^ b <<< 1 := by
      rw [BitVec.xor_assoc, BitVec.xor_comm (b <<< 1), ← BitVec.xor_assoc Config.poly, BitVec.xor_self,
        BitVec.zero_xor]
    exact h.symm

theorem polySteps_xor (k : Nat) (a b : Word64) : polySteps k (a ^^^ b) = polySteps k a ^^^ polySteps k b := by
  induction k generalizing a b with
  | zero => rfl
  | succ k ih => simp only [polySteps_succ, polyStep_xor, ih]

end Sys2Proof.Machine
end

