-- ==== Sys2Proof/Machine/Flags.lean ====
section
/-! DEFINITION. Flags: the engine has none. 10_state.md R21: "There are no flags, condition codes or predicates"; each
command's rule says "Flags: none" (41_engine.md R74 to R77). So this layer is empty, and State has no field for it. -/
end

