-- ==== Sys2Proof/Tests/Slice0.lean ====
section
/-! SUPPORT. Tests with expected values from spec/95_test_vectors.md and from the rules' worked examples, and one witness
for the hypotheses of each statement of the obligations. -/

namespace Sys2Proof.Tests

open Sys2Proof.Machine

/-- The next state of an outcome. -/
def after (o : Host.Outcome State Fault Refusal) : Option State :=
  match o with
  | .next t => some t
  | .fault _ => none
  | .refused _ => none

/-- The reset state with another accumulator. -/
def withAcc (v : Word64) : State := State.reset.writeAcc v

/-- The reset state with a host that will present these events. -/
def withEvents (es : List HostEvent) : State := { State.reset with inbox := es }

/-- An event with reset asserted and a word presented at the same time. -/
def resetWithWord : HostEvent := { reset := true, word := some 0x0231#16 }

/-- An event with reset asserted and no word. -/
def resetAlone : HostEvent := { reset := true, word := none }

/-- An event with neither. -/
def pause : HostEvent := { reset := false, word := none }

/-! ### Decoding: words written out from 30_encoding.md R47 and 95_test_vectors.md section 8 -/

theorem test_decode_nop : decode 0b0000000000000000#16 = .command .nop := by decide
theorem test_decode_init : decode 0b0000000100000000#16 = .command .init := by decide
theorem test_decode_update : decode 0b0000001000110001#16 = .command (.update 0x31) := by decide
theorem test_decode_final : decode 0b0000001100000000#16 = .command .final := by decide
theorem test_decode_swapped_bytes : decode 0x3102#16 = .reserved (.unassignedOpcode 0x31) := by decide
theorem test_encode_update : encode (.update 0x31) = 0x0231#16 := by decide
theorem test_table_word_update : decodeTableWord 16 0x02FF = some (.update 0xFF) := by decide

/-! ### Well-formedness: an ill-formed term for each check -/

theorem test_word_with_argument_is_ill_formed : wellFormedWord 0x0001#16 = false := by decide
theorem test_word_of_unassigned_opcode_is_ill_formed : wellFormedWord 0x0400#16 = false := by decide
/-- The two reserved words of P4 are named with their places. -/
theorem test_reserved_words_are_named :
    reservedWords [0x0234, 0x0401, 0x0001, 0x0235] = [(0x0401, 1), (0x0001, 2)] := by decide
theorem test_stream_with_reserved_word_is_ill_formed : wellFormedStream [0x0100, 0x0401, 0x0300] = false := by decide
theorem test_stream_of_commands_is_well_formed : wellFormedStream [0x0100, 0x0231, 0x0300] = true := by decide
theorem test_no_engine_is_ill_formed : wellFormedEngineCount 0 = false := by decide

/-! ### Functions -/

/-- V9. -/
theorem test_reflect64_poly : reflect64 0x42F0E1EBA9EA3693 = 0xC96C5795D7870F42 := by decide
/-- V6. -/
theorem test_reflect8_nibbles : reflect8 0xF0 = 0x0F := by decide
/-- V75, the index of the first fold of the check vector; X1 would give another table. -/
theorem test_table_entry : readTable 0x73 = 0xB753A929A170F4AB := by decide
/-- V62: bit 63 is value, not sign. -/
theorem test_dec_is_unsigned : dec 0x8000000000000000 =
    [0x39, 0x32, 0x32, 0x33, 0x33, 0x37, 0x32, 0x30, 0x33, 0x36, 0x38, 0x35, 0x34, 0x37, 0x37, 0x35, 0x38, 0x30, 0x38] := by
  decide
/-- V53: no leading zero, most significant digit first. -/
theorem test_dec_two_digits : dec 0x0A = [0x31, 0x30] := by decide
/-- V19. -/
theorem test_check_vector : crc64 [0x31, 0x32, 0x33, 0x34, 0x35, 0x36, 0x37, 0x38, 0x39] = 0x995DC9BBDF1939FA := by
  decide +kernel
/-- V28 against V17: the order of the bytes matters. -/
theorem test_order_of_bytes : crc64 [0x62, 0x61] = 0x06F4837F40125C65 := by decide +kernel

/-! ### Commands -/

/-- 41_engine.md R74, example. -/
theorem test_nop_keeps_acc : (after (exec .nop (withAcc 0x48AC56D65E8F0BAB))).map (·.acc) = some 0x48AC56D65E8F0BAB := by
  decide
/-- 41_engine.md R75, example. -/
theorem test_init_sets_acc : (after (exec .init (withAcc 0x48AC56D65E8F0BAB))).map (·.acc) = some 0xFFFFFFFFFFFFFFFF := by
  decide
/-- V37, the general case. -/
theorem test_update_general :
    (after (exec (.update 0xA5) (withAcc 0x0123456789ABCDEF))).map (·.acc) = some 0x50F615F3F97E7CCC := by decide
/-- V36: the top bit leaves the word and comes back through the table. -/
theorem test_update_top_bit :
    (after (exec (.update 0x00) (withAcc 0x8000000000000000))).map (·.acc) = some 0xF6FAE5C07D3274CD := by decide
/-- V45. -/
theorem test_final_general : (after (exec .final (withAcc 0x0123456789ABCDEF))).map (fun t => (t.acc, t.result)) =
    some (0xFFFFFFFFFFFFFFFF, 0x084C2A6E195D3B7F) := by decide
/-- V29: the 14-digit text, then six zero bytes. -/
theorem test_final_text : (after (exec .final (withAcc 0xF322F06BAD65FFFF))).map (fun t => (t.decLen, t.decDigits.toList)) =
    some (14, [0x39, 0x38, 0x31, 0x37, 0x35, 0x30, 0x36, 0x36, 0x30, 0x39, 0x34, 0x33, 0x38, 0x34, 0, 0, 0, 0, 0, 0]) := by
  decide

/-! ### The step -/

/-- 60_exceptions.md R92: reset wins over `UPDATE 0x31`. -/
theorem test_reset_wins : (after (step { withAcc 5 with inbox := [resetWithWord] })).map (·.acc) = some 0xFFFFFFFFFFFFFFFF := by
  decide
/-- 95_test_vectors.md P4, word 8: a reserved word leaves the accumulator. -/
theorem test_reserved_word_discarded :
    (after (step { withAcc 0xEB3CE299361E8D8C with inbox := [HostEvent.ofWord 0x0401] })).map (·.acc) =
      some 0xEB3CE299361E8D8C := by decide
theorem test_fetch_word_runs : (after (step (State.reset.withFetchWord 16 0x0231))).map (·.acc) = some 0x48AC56D65E8F0BAB := by
  decide
/-- Of two instances, the one named moves and the other stays (10_state.md R27). -/
theorem test_device_moves_one_instance :
    let d : Device 2 := ⟨#v[withEvents [HostEvent.ofWord 0x0231], withEvents [HostEvent.ofWord 0x0231]]⟩
    (match d.stepAt 1 with
      | .next d' => some (d'.engines[0].acc, d'.engines[1].acc)
      | .fault _ => none
      | .refused _ => none) = some (0xFFFFFFFFFFFFFFFF, 0x48AC56D65E8F0BAB) := by decide

/-! ### Assembler text (30_encoding.md R52, R53) -/

/-- `UPDATE 49 ; x`: decimal, with a comment. -/
theorem test_parse_decimal : Asm.parseLine ['U', 'P', 'D', 'A', 'T', 'E', ' ', '4', '9', ' ', ';', ' ', 'x'] =
    some (.command (.update 0x31)) := by decide
/-- `UPDATE '1'`. -/
theorem test_parse_character : Asm.parseLine ['U', 'P', 'D', 'A', 'T', 'E', ' ', '\'', '1', '\''] =
    some (.command (.update 0x31)) := by decide
/-- `UPDATE 256` is no line of the syntax. -/
theorem test_parse_refuses_256 : Asm.parseLine ['U', 'P', 'D', 'A', 'T', 'E', ' ', '2', '5', '6'] = none := by decide
/-- `UPDATEB 0x4B, 238`. -/
theorem test_parse_byte_list :
    Asm.parseLine ['U', 'P', 'D', 'A', 'T', 'E', 'B', ' ', '0', 'x', '4', 'B', ',', ' ', '2', '3', '8'] =
      some (.updateB [0x4B, 0xEE]) := by decide
/-- `CHECKSUM "12"` is `INIT; UPDATE '1'; UPDATE '2'; FINAL`. -/
theorem test_assemble_checksum :
    Asm.assemble [['C', 'H', 'E', 'C', 'K', 'S', 'U', 'M', ' ', '"', '1', '2', '"']] =
      some [0x0100, 0x0231, 0x0232, 0x0300] := by decide

/-! ### Witnesses: for each statement, hypotheses that are met together -/

theorem witness_ResetEventSetsEveryRegister :
    ((withEvents [resetWithWord]).inbox = resetWithWord :: [] ∧ resetWithWord.reset = true) ∧
    (withEvents [resetAlone, HostEvent.ofWord 0x0231]).inbox =
      resetAlone :: HostEvent.ofWord (encode (.update 0x31)) :: [] ∧
    resetAlone.reset = true ∧ resetAlone.word = none := by decide

theorem witness_ResetDropsTheWordPresentedWithIt :
    ((withEvents [resetWithWord, pause]).inbox = resetWithWord :: [pause] ∧ resetWithWord.reset = true) ∧
    (withEvents [resetWithWord, HostEvent.ofWord 0x0232, pause]).inbox =
      resetWithWord :: HostEvent.ofWord (encode (.update 0x32)) :: [pause] := by decide

theorem witness_PauseChangesNothing :
    State.reset.inbox = [] ∧ (withEvents [pause, resetWithWord]).inbox = { reset := false, word := none } :: [resetWithWord] := by
  decide

theorem witness_StepRunsTheDecodedCommand :
    (withEvents [HostEvent.ofWord 0x02FF]).inbox = HostEvent.ofWord 0x02FF :: [] ∧
      decode 0x02FF = .command (.update 0xFF) := by decide

theorem witness_FetchWordIsRunNext : decodeTableWord 16 0x0200 = some (.update 0x00) := by decide

theorem witness_ReservedWordIsDiscarded :
    wellFormedWord 0x0001 = false ∧ wellFormedWord 0x0400 = false ∧ wellFormedWord 0xFFFF = false ∧
      (withEvents [HostEvent.ofWord 0xFFFF]).inbox = HostEvent.ofWord 0xFFFF :: [] := by decide

theorem witness_EveryCommandHasOneSuccessor :
    exec .nop State.reset = .next State.reset ∧ decode 0x03FF = .reserved (.nonzeroArgument 0x03 0xFF) :=
  ⟨rfl, by decide⟩

/-- The two ends of the reserved words around the row of `UPDATE`, and one of each other kind. -/
theorem witness_OpcodeMapRowsAreDisjointAndActAsListed :
    ([0x01FF#16, 0x0301#16, 0x0001#16, 0x0400#16, 0xFFFF#16].all fun cw =>
      decide (cw ≠ 0x0000#16 ∧ cw ≠ 0x0100#16 ∧ cw &&& 0xFF00#16 ≠ 0x0200#16 ∧ cw ≠ 0x0300#16)) = true := by decide

theorem witness_DecodeAndEncodeAgree : decode 0x02FF = .command (.update 0xFF) := by decide

theorem witness_ReflectReversesTheLowBits :
    (0 < 8 ∧ 7 < 8 ∧ 8 ≤ 8) ∧ ∀ i, i < 4 → (0x0F#8).getLsbD i = (0xFF#8).getLsbD i := by decide

theorem witness_TableIsLinear : (127#8 : Byte).toNat < 128 := by decide

theorem witness_TableEntriesAreDistinctAndSumAsListed :
    (tableEntry 0xFF).setWidth 8 = (tableEntry (0x0F + 0xF0)).setWidth 8 := rfl

theorem witness_OneChangedByteChangesTheChecksum : (0x61 : Byte) ≠ 0x62 := by decide

theorem witness_ChecksumOfThreeXoredMessages :
    ([0x61, 0x62] : List Byte).length = ([0x00, 0xFF] : List Byte).length ∧
      ([0x00, 0xFF] : List Byte).length = ([0x31, 0x31] : List Byte).length := by decide

/-- A digit text with a leading zero has the value of a shorter one. -/
theorem witness_DecIsTheShortestNumeral :
    ([0x30, 0x37] : List Byte) ≠ [] ∧ (∀ c ∈ ([0x30, 0x37] : List Byte), 0x30 ≤ c.toNat ∧ c.toNat ≤ 0x39) ∧
      ([0x30, 0x37] : List Byte).foldl (fun n c => 10 * n + (c.toNat - 0x30)) 0 = (7 : Word64).toNat ∧
      ([0x37] : List Byte).length = (dec 7).length := by decide

theorem witness_TextDeterminesTheValue : dec 0x8000000000000000 = dec (0x7FFFFFFFFFFFFFFF + 1) := by decide

theorem witness_EveryStepKeepsTextEqualToResult :
    (withEvents [HostEvent.ofWord 0x0300]).textMatchesResult ∧
      ∃ t, step (withEvents [HostEvent.ofWord 0x0300]) = .next t := ⟨by decide, _, rfl⟩

/-- The shortest text and the longest. -/
theorem witness_TextRegistersHaveTheirShape :
    State.reset.textMatchesResult ∧ (State.reset.writeResult 0xFFFFFFFFFFFFFFFF).textMatchesResult := by decide

theorem witness_NopLeavesTheStateUnchanged :
    (withEvents [HostEvent.ofWord 0, HostEvent.ofWord 0, pause]).inbox =
      List.replicate 2 (HostEvent.ofWord 0x0000#16) ++ [pause] := by decide

theorem witness_InitSetsTheAccumulatorOnly :
    State.reset.acc = 0xFFFFFFFFFFFFFFFF#64 ∧ ∃ t, exec .init (withAcc 0) = .next t := ⟨by decide, _, rfl⟩

theorem witness_UpdateFoldsOneByteOnly : State.reset.acc = 0xFFFFFFFFFFFFFFFF#64 ∧ (withAcc 0).acc = 0#64 := by decide

theorem witness_FinalProducesResultTextAndFreshAccumulator :
    (withAcc 0).acc = 0#64 ∧ (withAcc 0xA0636704226C4566).acc = 0xA0636704226C4566#64 := by decide

theorem witness_CommandsChangeOnlyTheirRegisters :
    (∃ t, exec (.update 0x31) State.reset = .next t) ∧ Instr.update 0x31 ≠ .final := ⟨⟨_, rfl⟩, by decide⟩

/-- A step for each writer of `ACC`; the step of `UPDATE 0x31` changes it. -/
theorem witness_AccumulatorIsWrittenOnlyByItsWriters :
    ((∃ t, step (withEvents [resetWithWord]) = .next t) ∧ resetWithWord.reset = true) ∧
    ((∃ t, step (withEvents [HostEvent.ofWord 0x0100]) = .next t) ∧ decode 0x0100 = .command .init) ∧
    ((∃ t, step (withEvents [HostEvent.ofWord 0x0231]) = .next t ∧ t.acc ≠ (withEvents [HostEvent.ofWord 0x0231]).acc) ∧
      decode 0x0231 = .command (.update 0x31)) ∧
    ((∃ t, step (withEvents [HostEvent.ofWord 0x0300]) = .next t) ∧ decode 0x0300 = .command .final) :=
  ⟨⟨⟨_, rfl⟩, rfl⟩, ⟨⟨_, rfl⟩, by decide⟩, ⟨⟨_, rfl, by decide⟩, by decide⟩, ⟨_, rfl⟩, by decide⟩

/-- A `FINAL` that changes the result, and a reset. -/
theorem witness_ResultIsWrittenOnlyByFinalAndReset :
    ((∃ t, step { withAcc 0 with inbox := [HostEvent.ofWord 0x0300] } = .next t ∧ t.result ≠ (withAcc 0).result) ∧
      decode 0x0300 = .command .final) ∧
    (∃ t, step (withEvents [resetWithWord]) = .next t) ∧ resetWithWord.reset = true :=
  ⟨⟨⟨_, rfl, by decide⟩, by decide⟩, ⟨_, rfl⟩, rfl⟩

theorem witness_UpdatesFoldTheirBytesInOrder :
    (withEvents [HostEvent.ofWord 0x0231, HostEvent.ofWord 0x0232, pause]).inbox =
      eventsOf ([0x31, 0x32].map Instr.update) ++ [pause] := by decide

theorem witness_ComputationGivesTheChecksumFromEveryState :
    (withEvents [HostEvent.ofWord 0x0100, HostEvent.ofWord 0x0261, HostEvent.ofWord 0x0300, pause]).inbox =
      eventsOf (checksumCommands [0x61]) ++ [pause] ∧
    State.reset.acc = 0xFFFFFFFFFFFFFFFF#64 ∧
    (withEvents [HostEvent.ofWord 0x0261, HostEvent.ofWord 0x0300]).inbox =
      eventsOf ([0x61].map Instr.update ++ [.final]) ++ [] := by decide

/-- The check vector's first byte with a pause, a `NOP` and a reserved word among its words. -/
theorem witness_StreamingWithIdleWordsGivesTheSameChecksum :
    ([pause, HostEvent.ofWord 0x0100, HostEvent.ofWord 0x0000, HostEvent.ofWord 0x0231, HostEvent.ofWord 0x0401,
      HostEvent.ofWord 0x0300].filter fun e => !e.idle) = eventsOf (checksumCommands [0x31]) := by decide

theorem witness_RegistersAreDeterminedByTheHistory :
    (withEvents [HostEvent.ofWord 0x0261, resetWithWord]).records History.start ∧
      (withEvents [HostEvent.ofWord 0x0261, resetWithWord]).inbox = [HostEvent.ofWord 0x0261] ++ [resetWithWord] := by
  unfold State.records
  decide

theorem witness_StepsOfDistinctInstancesCommute : (0 : Fin 3) ≠ 1 ∧ (2 : Fin 3) ≠ 0 ∧ (2 : Fin 3) ≠ 1 := by decide

end Sys2Proof.Tests
end

/-! PROOF. The decimal text of a value and its layout in the registers: how long it is, what its characters are, and what
the host reads back. -/

namespace Sys2Proof.Machine

theorem digitsFrom_length_le (k t : Nat) : (digitsFrom k t).length ≤ k := by
  induction k generalizing t with
  | zero => exact Nat.le_refl 0
  | succ k ih =>
    rw [digitsFrom_succ]
    split
    · simp
    · simpa using ih (t / 10)

theorem lt_ten_of_mem_digitsFrom {k t x : Nat} (h : x ∈ digitsFrom k t) : x < 10 := by
  induction k generalizing t with
  | zero => exact absurd h List.not_mem_nil
  | succ k ih =>
    rw [digitsFrom_succ, List.mem_cons] at h
    obtain rfl | hrest := h
    · exact Nat.mod_lt t (by decide)
    · split at hrest
      · exact absurd hrest List.not_mem_nil
      · exact ih hrest

theorem digitChar_toNat {x : Nat} (h : x < 10) : (digitChar x).toNat = 0x30 + x := by
  simp only [digitChar, BitVec.toNat_add, BitVec.toNat_ofNat]
  omega

theorem dec_length (v : Word64) : (dec v).length = (digitsFrom 20 v.toNat).length := by
  simp [dec]

theorem dec_length_le (v : Word64) : (dec v).length ≤ 20 :=
  dec_length v ▸ digitsFrom_length_le 20 v.toNat

/-- The loop body runs at least once (42_decimal.md R85). -/
theorem dec_length_pos (v : Word64) : 1 ≤ (dec v).length := by
  rw [dec_length, digitsFrom_succ, List.length_cons]
  omega

theorem digit_of_mem_dec {v : Word64} {c : Byte} (h : c ∈ dec v) : 0x30 ≤ c.toNat ∧ c.toNat ≤ 0x39 := by
  simp only [dec, List.mem_map, List.mem_reverse] at h
  obtain ⟨x, hx, rfl⟩ := h
  have hlt := lt_ten_of_mem_digitsFrom hx
  rw [digitChar_toNat hlt]
  omega

theorem textLen_toNat {text : List Byte} (h : text.length ≤ 20) : (textLen text).toNat = text.length := by
  simp only [textLen, BitVec.toNat_ofNat]
  omega

theorem textDigits_of_lt {text : List Byte} {k : Nat} (hk : k < 20) (h : k < text.length) :
    (textDigits text)[k] = text[k] := by
  rw [textDigits_getElem text k hk, List.getD_eq_getElem text 0 h]

theorem textDigits_of_length_le {text : List Byte} {k : Nat} (hk : k < 20) (h : text.length ≤ k) :
    (textDigits text)[k] = 0x00#8 := by
  rw [textDigits_getElem text k hk, List.getD_eq_default text 0 h]
  rfl

/-- A text of at most 20 characters is read back whole from the registers it was laid out in (42_decimal.md R88). -/
theorem textDigits_toList_take {text : List Byte} (h : text.length ≤ 20) :
    (textDigits text).toList.take text.length = text := by
  apply List.ext_getElem
  · simpa using h
  · intro k hk hk'
    rw [List.getElem_take, Vector.getElem_toList, textDigits_of_lt (by omega) hk']

/-- Under the invariant of 10_state.md R19 `DEC_LEN` is the length of the text it encodes. -/
theorem State.decLen_toNat_of_textMatchesResult {s : State} (h : s.textMatchesResult) :
    s.decLen.toNat = (dec s.result).length := by
  rw [h.1, textLen_toNat (dec_length_le s.result)]

/-- Under the invariant of 10_state.md R19 the host reads `dec(RESULT)`. -/
theorem State.text_of_textMatchesResult {s : State} (h : s.textMatchesResult) : s.text = dec s.result := by
  rw [State.text, State.decLen_toNat_of_textMatchesResult h, h.2,
    textDigits_toList_take (dec_length_le s.result)]

end Sys2Proof.Machine

/-! PROOF. What a step gives for each kind of event, and what every step keeps. -/

namespace Sys2Proof.Machine

variable {s t u : State} {e : HostEvent} {rest : List HostEvent} {cw : CommandWord} {i : Instr}

theorem HostEvent.reset_of_input_reset (h : e.input = .reset) : e.reset = true := by
  cases hr : e.reset with
  | true => rfl
  | false =>
    cases hw : e.word with
    | none => simp [HostEvent.input, hr, hw] at h
    | some cw => simp [HostEvent.input, hr, hw] at h

theorem HostEvent.word_of_input_word (h : e.input = .word cw) : e.word = some cw := by
  cases hr : e.reset with
  | true => simp [HostEvent.input_of_reset hr] at h
  | false =>
    cases hw : e.word with
    | none => simp [HostEvent.input, hr, hw] at h
    | some cw' => simpa [HostEvent.input, hr, hw] using h

/-- A reset event gives the reset state, whatever word is presented with it (60_exceptions.md R92). -/
theorem step_of_reset (hin : s.inbox = e :: rest) (hreset : e.reset = true) :
    step s = .next { State.reset with inbox := rest } := by
  rw [step, State.takeInput_cons hin, HostEvent.input_of_reset hreset]
  rfl

/-- A word presented with no reset runs the command it decodes to (30_encoding.md R55). -/
theorem step_of_command (hin : s.inbox = HostEvent.ofWord cw :: rest) (hdec : decode cw = .command i) :
    step s = exec i { s with inbox := rest } := by
  rw [step, State.takeInput_cons hin, HostEvent.ofWord, HostEvent.input_word, acceptInput_word,
    acceptWord_command hdec]

theorem eq_of_step_eq_next (h : step s = .next t) (h' : step s = .next u) : t = u :=
  Host.Outcome.next.inj (h.symm.trans h')

/-- A step that neither resets nor runs a command leaves every register as it is; only the host's list gets shorter. -/
theorem step_keeps_registers_or_acts (h : step s = .next t) :
    t = { s with inbox := s.inbox.tail } ∨
    ∃ e rest, s.inbox = e :: rest ∧ (e.reset = true ∨
      ∃ cw i, e.word = some cw ∧ decode cw = .command i ∧ exec i { s with inbox := rest } = .next t) := by
  obtain ⟨hin, rfl⟩ | ⟨e, rest, hin, ⟨-, rfl⟩ | ⟨hreset, -⟩ | ⟨_, _, -, -, rfl⟩ | ⟨cw, i, hword, hdec, hexec⟩⟩ :=
    step_cases h
  · exact .inl (by rw [hin, List.tail_nil, ← hin])
  · exact .inl (by rw [hin, List.tail_cons])
  · exact .inr ⟨e, rest, hin, .inl (HostEvent.reset_of_input_reset hreset)⟩
  · exact .inl (by rw [hin, List.tail_cons])
  · exact .inr ⟨e, rest, hin, .inr ⟨cw, i, HostEvent.word_of_input_word hword, hdec, hexec⟩⟩

/-- Every command but `FINAL` leaves `RESULT` and its text as they are (10_state.md R17, R18). -/
theorem exec_keeps_result (hi : i ≠ .final) (h : exec i s = .next t) :
    t.result = s.result ∧ t.decLen = s.decLen ∧ t.decDigits = s.decDigits := by
  cases i with
  | nop => rw [← Host.Outcome.next.inj h]; exact ⟨rfl, rfl, rfl⟩
  | init => rw [← Host.Outcome.next.inj h]; exact ⟨rfl, rfl, rfl⟩
  | update b => rw [← Host.Outcome.next.inj h]; exact ⟨rfl, rfl, rfl⟩
  | final => exact absurd rfl hi

theorem State.writeResult_textMatchesResult (s : State) (v : Word64) : (s.writeResult v).textMatchesResult :=
  ⟨rfl, rfl⟩

/-- The text invariant is about `RESULT` and its text alone. -/
theorem State.textMatchesResult_congr
    (h : t.result = s.result ∧ t.decLen = s.decLen ∧ t.decDigits = s.decDigits) :
    t.textMatchesResult ↔ s.textMatchesResult := by
  obtain ⟨hres, hlen, hdigits⟩ := h
  rw [State.textMatchesResult, State.textMatchesResult, hres, hlen, hdigits]

/-- `FINAL` writes the text of the result it writes; the other commands write neither. -/
theorem exec_keeps_textMatchesResult (hs : s.textMatchesResult) (h : exec i s = .next t) : t.textMatchesResult := by
  by_cases hi : i = .final
  · subst hi
    rw [← Host.Outcome.next.inj h]
    exact State.writeResult_textMatchesResult s (finalize s.acc)
  · exact (State.textMatchesResult_congr (exec_keeps_result hi h)).mpr hs

theorem State.reset_textMatchesResult : State.reset.textMatchesResult := by decide

theorem State.reset_text (rest : List HostEvent) : State.text { State.reset with inbox := rest } = [0x30#8] := rfl

end Sys2Proof.Machine

/-! PROOF. The obligations of 10_state.md. -/

namespace Sys2Proof.Machine

/-- Settles O36, by the cases of a step: an idle step keeps the registers, a reset gives the reset text, and a command
keeps the invariant. -/
theorem everyStepKeepsTextEqualToResult : Obligations.EveryStepKeepsTextEqualToResult := by
  intro s t hs hstep
  obtain ⟨-, rfl⟩ | ⟨e, rest, -, ⟨-, rfl⟩ | ⟨-, rfl⟩ | ⟨_, _, -, -, rfl⟩ | ⟨_, i, -, -, hexec⟩⟩ := step_cases hstep
  · exact hs
  · exact hs
  · exact State.reset_textMatchesResult
  · exact hs
  · exact exec_keeps_textMatchesResult (s := { s with inbox := rest }) hs hexec

/-- Settles O38, from the shape of `dec` and the layout of its text. -/
theorem textRegistersHaveTheirShape : Obligations.TextRegistersHaveTheirShape := by
  intro s hs
  rw [State.decLen_toNat_of_textMatchesResult hs, hs.2]
  refine ⟨dec_length_pos _, dec_length_le _, State.text_of_textMatchesResult hs, fun k => ⟨fun hk => ?_, fun hk => ?_⟩⟩
  · rw [Fin.getElem_fin, textDigits_of_lt k.isLt hk]
    exact digit_of_mem_dec (List.getElem_mem hk)
  · exact textDigits_of_length_le k.isLt hk

/-- Settles O44: a reset and each command by the rule of its step; every other step keeps `ACC`. -/
theorem accumulatorIsWrittenOnlyByItsWriters : Obligations.AccumulatorIsWrittenOnlyByItsWriters := by
  refine ⟨fun s v => ⟨rfl, rfl⟩, fun s t hstep => ⟨?reset, ?init, ?update, ?final, ?others⟩⟩
  case reset =>
    intro e rest hin hreset
    rw [eq_of_step_eq_next hstep (step_of_reset hin hreset)]
    rfl
  case init =>
    intro cw rest hin hdec
    rw [eq_of_step_eq_next hstep (step_of_command hin hdec)]
    rfl
  case update =>
    intro cw b rest hin hdec
    rw [eq_of_step_eq_next hstep (step_of_command hin hdec)]
    rfl
  case final =>
    intro cw rest hin hdec
    rw [eq_of_step_eq_next hstep (step_of_command hin hdec)]
    rfl
  case others =>
    intro hne
    obtain rfl | ⟨e, rest, hin, hreset | ⟨cw, i, hword, hdec, hexec⟩⟩ := step_keeps_registers_or_acts hstep
    · exact absurd rfl hne
    · exact ⟨e, rest, hin, .inl hreset⟩
    · refine ⟨e, rest, hin, .inr ⟨cw, i, hword, hdec, ?_⟩⟩
      rintro rfl
      exact hne (by rw [← Host.Outcome.next.inj hexec])

/-- Settles O45: `FINAL` and a reset by the rules of their steps; every other step keeps all three registers. -/
theorem resultIsWrittenOnlyByFinalAndReset : Obligations.ResultIsWrittenOnlyByFinalAndReset := by
  refine fun s t hstep => ⟨?final, ?reset, ?others⟩
  case final =>
    intro cw rest hin hdec
    rw [eq_of_step_eq_next hstep (step_of_command hin hdec)]
    exact ⟨rfl, rfl, rfl⟩
  case reset =>
    intro e rest hin hreset
    rw [eq_of_step_eq_next hstep (step_of_reset hin hreset)]
    exact ⟨rfl, State.reset_text rest⟩
  case others =>
    intro hne
    obtain rfl | ⟨e, rest, hin, hreset | ⟨cw, i, hword, hdec, hexec⟩⟩ := step_keeps_registers_or_acts hstep
    · simp at hne
    · exact ⟨e, rest, hin, .inl hreset⟩
    · by_cases hi : i = .final
      · exact ⟨e, rest, hin, .inr ⟨cw, hword, hi ▸ hdec⟩⟩
      · obtain ⟨hres, hlen, hdigits⟩ := exec_keeps_result hi hexec
        simp [hres, hlen, hdigits] at hne

/-- The transcribed listing is the table's entries in index order (40_table.md R67). -/
theorem tableListing_eq_map_tableEntry :
    tableListing = (List.range 256).map fun i => tableEntry (BitVec.ofNat 8 i) := by
  decide +kernel

theorem tableListing_getElem? (i : Byte) : tableListing[i.toNat]? = some (tableEntry i) := by
  have hi : i.toNat < 256 := i.isLt
  rw [tableListing_eq_map_tableEntry, List.getElem?_map, List.getElem?_range hi, Option.map_some,
    BitVec.ofNat_toNat, BitVec.setWidth_eq]

/-- Settles O1: the registers by evaluation, the table by its listing. -/
theorem resetGivesEveryRegisterItsValue : Obligations.ResetGivesEveryRegisterItsValue :=
  ⟨rfl, rfl, rfl, rfl, by decide, by decide, State.reset_textMatchesResult, rfl, tableListing_getElem?⟩

/-- Settles O37: the text of the reset state is that of 0. -/
theorem resetTextEqualsResult : Obligations.ResetTextEqualsResult := State.reset_textMatchesResult

end Sys2Proof.Machine

/-! PROOF. Decoding, encoding and the rows of the opcode table, each in terms of the others. -/

namespace Sys2Proof

open Machine

variable {cw : CommandWord} {i : Instr}

@[simp] theorem decode_encode (i : Instr) : decode (encode i) = .command i := by
  cases i with
  | nop => decide
  | init => decide
  | update b => simp [decode, encode]
  | final => decide

/-- A word that decodes to a command has the two fields the encoder writes for it. -/
theorem encode_of_decode (h : decode cw = .command i) : encode i = cw := by
  rw [decode] at h
  split_ifs at h with hupdate hnop hinit hfinal
  all_goals
    obtain rfl := Decoded.command.inj h
    refine ((eq_commandWord_iff cw _ _).mpr ?_).symm
  · exact ⟨hupdate, rfl⟩
  · exact hnop
  · exact hinit
  · exact hfinal

/-- The word of `UPDATE b` as 30_encoding.md R47 writes it. -/
theorem encode_update (b : Byte) : encode (.update b) = 0x0200#16 + b.setWidth 16 := by
  apply BitVec.eq_of_toNat_eq
  have := b.isLt
  simp only [encode, commandWord, BitVec.toNat_ofNat, BitVec.toNat_add, BitVec.toNat_setWidth]
  omega

theorem filter_selects_encode (i : Instr) : opcodeTable.filter (·.selects (encode i)) = [i.row] := by
  cases i with
  | nop => exact Laws.TableRow.nop
  | init => exact Laws.TableRow.init
  | update b => exact Laws.TableRow.update b
  | final => exact Laws.TableRow.final

/-- The mask and match columns (R47) define the same words as the encoder. -/
theorem wellFormedWord_iff_exists_encode : wellFormedWord cw = true ↔ ∃ i, cw = encode i := by
  constructor
  · intro h
    simp only [wellFormedWord, opcodeTable, List.any_cons, List.any_nil, Bool.or_eq_true, nop_row_selects,
      init_row_selects, update_row_selects, final_row_selects, decide_eq_true_eq, Bool.false_eq_true, or_false] at h
    obtain hnop | hinit | hupdate | hfinal := h
    · exact ⟨.nop, (eq_commandWord_iff cw _ _).mpr hnop⟩
    · exact ⟨.init, (eq_commandWord_iff cw _ _).mpr hinit⟩
    · exact ⟨.update (argField cw), (eq_commandWord_iff cw _ _).mpr ⟨hupdate, rfl⟩⟩
    · exact ⟨.final, (eq_commandWord_iff cw _ _).mpr hfinal⟩
  · rintro ⟨i, rfl⟩
    have hrow : i.row ∈ opcodeTable.filter (·.selects (encode i)) := by simp [filter_selects_encode]
    obtain ⟨hmem, hsel⟩ := List.mem_filter.mp hrow
    exact List.any_eq_true.mpr ⟨i.row, hmem, hsel⟩

/-- A word no row selects is reserved (30_encoding.md R47, R49). -/
theorem exists_decode_reserved (h : wellFormedWord cw = false) : ∃ why, decode cw = .reserved why := by
  cases hdec : decode cw with
  | reserved why => exact ⟨why, rfl⟩
  | command i =>
    have hwf := wellFormedWord_iff_exists_encode.mpr ⟨i, (encode_of_decode hdec).symm⟩
    exact absurd (hwf.symm.trans h) (by decide)

/-- The rows a word selects are the row of the command it decodes to, and no row where it is reserved. -/
theorem filter_selects_eq (cw : CommandWord) :
    opcodeTable.filter (·.selects cw) = ((decode cw).instr?.map Instr.row).toList := by
  cases hwf : wellFormedWord cw with
  | true =>
    obtain ⟨i, rfl⟩ := wellFormedWord_iff_exists_encode.mp hwf
    rw [filter_selects_encode, decode_encode]
    rfl
  | false =>
    obtain ⟨why, hdec⟩ := exists_decode_reserved hwf
    rw [hdec]
    exact List.filter_eq_nil_iff.mpr (List.any_eq_false.mp hwf)

theorem find?_selects_eq (cw : CommandWord) :
    opcodeTable.find? (·.selects cw) = (decode cw).instr?.map Instr.row := by
  rw [← List.head?_filter, filter_selects_eq, Option.head?_toList]

/-- No defined word lies above that of `FINAL` (30_encoding.md R47). -/
theorem toNat_le_of_wellFormedWord (h : wellFormedWord cw = true) : cw.toNat ≤ 0x300 := by
  obtain ⟨i, rfl⟩ := wellFormedWord_iff_exists_encode.mp h
  cases i with
  | nop => decide
  | init => decide
  | update b =>
    have := b.isLt
    simp only [encode, commandWord, BitVec.toNat_ofNat]
    omega
  | final => decide

/-- "259 of the 65536 words are defined" (30_encoding.md R47): they are counted up to the word of `FINAL`, and there are
none above it. -/
theorem count_wellFormedWord :
    ((List.range 65536).filter fun w => wellFormedWord (BitVec.ofNat 16 w)).length = 259 := by
  have hlow : ((List.range 0x301).filter fun w => wellFormedWord (BitVec.ofNat 16 w)).length = 259 := by
    decide +kernel
  have hhigh : (((List.range 64767).map (0x301 + ·)).filter fun w => wellFormedWord (BitVec.ofNat 16 w)) = [] := by
    refine List.filter_eq_nil_iff.mpr fun w hw hwf => ?_
    obtain ⟨k, hk, rfl⟩ := List.mem_map.mp hw
    have hle := toNat_le_of_wellFormedWord hwf
    have hk := List.mem_range.mp hk
    rw [BitVec.toNat_ofNat] at hle
    omega
  rw [show 65536 = 0x301 + 64767 from rfl, List.range_add, List.filter_append, hhigh, List.append_nil, hlow]

end Sys2Proof

/-! PROOF. What accepting a word, one step and a run do with encoded commands and with reserved words. -/

namespace Sys2Proof.Machine

variable {s : State} {rest : List HostEvent} {cw : CommandWord} {why : Reserved}

@[simp] theorem acceptWord_encode (i : Instr) (s : State) : acceptWord (encode i) s = exec i s :=
  acceptWord_command (decode_encode i) s

/-- A reserved word is taken off the host's list and does nothing else (30_encoding.md R49). -/
theorem step_of_reserved (hin : s.inbox = HostEvent.ofWord cw :: rest) (hdec : decode cw = .reserved why) :
    step s = .next { s with inbox := rest } := by
  rw [step, State.takeInput_cons hin, HostEvent.ofWord, HostEvent.input_word, acceptInput_word,
    acceptWord_reserved hdec]

/-- An encoded command presented next is what the step runs. -/
theorem step_of_encode {i : Instr} (hin : s.inbox = HostEvent.ofWord (encode i) :: rest) :
    step s = exec i { s with inbox := rest } :=
  step_of_command hin (decode_encode i)

/-- The words of a run of `UPDATE`s fold their bytes in order and touch nothing else (20_memory.md R31). -/
theorem run_updates (bytes : List Byte) (k : Nat) (hin : s.inbox = eventsOf (bytes.map Instr.update) ++ rest) :
    run (bytes.length + k) s = run k { s with acc := foldBytes s.acc bytes, inbox := rest } := by
  induction bytes generalizing s with
  | nil =>
    have hrest : s.inbox = rest := hin
    rw [← hrest, List.length_nil, Nat.zero_add, foldBytes_nil]
  | cons b bs ih =>
    have hstep := step_of_encode (i := .update b) (rest := eventsOf (bs.map Instr.update) ++ rest) hin
    rw [List.length_cons, Nat.add_right_comm, run_succ _ (hstep.trans (exec_update b _)), ih rfl]
    rfl

/-- `UPDATE b0; ..; FINAL` from an all-ones accumulator ends with the checksum of its bytes (30_encoding.md R54). -/
theorem run_updates_final (bytes : List Byte) (hacc : s.acc = Config.initAcc)
    (hin : s.inbox = eventsOf (bytes.map Instr.update ++ [.final]) ++ rest) :
    ∃ t, run (bytes.length + 1) s = .next t ∧ t.result = crc64 bytes ∧ t.text = checksum bytes ∧
      t.acc = Config.initAcc ∧ t.inbox = rest := by
  have hin' : s.inbox = eventsOf (bytes.map Instr.update) ++ HostEvent.ofWord (encode .final) :: rest := by
    rw [hin, eventsOf, List.map_append, List.append_assoc]
    rfl
  rw [run_updates bytes 1 hin', hacc, run_succ 0 ((step_of_encode rfl).trans (exec_final _)), run_zero]
  exact ⟨_, rfl, rfl, State.text_of_textMatchesResult ⟨rfl, rfl⟩, rfl, rfl⟩

end Sys2Proof.Machine

/-! PROOF. The obligations of 30_encoding.md. -/

namespace Sys2Proof.Machine

/-- Settles O10, by the fields of a command word. -/
theorem decodeAndEncodeAgree : Obligations.DecodeAndEncodeAgree :=
  ⟨decode_encode, fun _ _ => encode_of_decode⟩

/-- Settles O47: `INIT` makes the accumulator all-ones, and the rest folds the bytes and finalizes. -/
theorem computationGivesTheChecksumFromEveryState : Obligations.ComputationGivesTheChecksumFromEveryState := by
  refine ⟨fun s bytes rest hin => ?_, fun s bytes rest hacc hin => run_updates_final bytes hacc hin⟩
  have hinit := step_of_encode (i := .init)
    (rest := eventsOf (bytes.map Instr.update ++ [.final]) ++ rest) hin
  rw [run_succ (bytes.length + 1) (hinit.trans (exec_init _))]
  exact run_updates_final bytes rfl rfl

/-- Settles O7: a word no row selects decodes as reserved, and its step and that of `NOP` leave the same state. -/
theorem reservedWordIsDiscarded : Obligations.ReservedWordIsDiscarded := by
  intro s cw rest hwf hin
  obtain ⟨why, hdec⟩ := exists_decode_reserved hwf
  exact ⟨_, step_of_reserved hin hdec, rfl, (step_of_encode rfl).trans (exec_nop _)⟩

/-- A word outside the four rows of the map leaves the state (30_encoding.md R47, R49). -/
theorem acceptWord_of_not_listed {cw : CommandWord} (hnop : cw ≠ 0x0000#16) (hinit : cw ≠ 0x0100#16)
    (hupdate : cw &&& 0xFF00#16 ≠ 0x0200#16) (hfinal : cw ≠ 0x0300#16) (s : State) : acceptWord cw s = .next s := by
  cases hdec : decode cw with
  | reserved why => exact acceptWord_reserved hdec s
  | command i =>
    obtain rfl := encode_of_decode hdec
    cases i with
    | nop => exact absurd rfl hnop
    | init => exact absurd rfl hinit
    | update b => exact absurd ((and_highByte_eq_iff _).mpr (opField_commandWord 0x02#8 b)) hupdate
    | final => exact absurd rfl hfinal

/-- Settles O9: each listed word is the encoder's word of its command, and the rows are those of the decoder. -/
theorem opcodeMapRowsAreDisjointAndActAsListed : Obligations.OpcodeMapRowsAreDisjointAndActAsListed := by
  refine ⟨fun s => ⟨acceptWord_encode .nop s, acceptWord_encode .init s, fun b => ?update,
    acceptWord_encode .final s, fun cw hnop hinit hupdate hfinal => acceptWord_of_not_listed hnop hinit hupdate hfinal s⟩,
    rfl, fun cw => (find?_selects_eq cw).symm, fun cw => ?disjoint, count_wellFormedWord⟩
  case update =>
    rw [← encode_update]
    exact acceptWord_encode (.update b) s
  case disjoint =>
    rw [filter_selects_eq]
    exact Option.length_toList_le

/-- Settles O54: each clause is the definition of the expansion of its line. -/
theorem pseudoInstructionsExpandAsListed : Obligations.PseudoInstructionsExpandAsListed :=
  ⟨fun _ => rfl, rfl, fun _ => rfl, fun _ => rfl⟩

end Sys2Proof.Machine

/-! PROOF. Bit reflection in terms of bits (40_table.md R60): where each bit of the result comes from, and what follows
for XOR, complement and the inverse. -/

namespace Sys2Proof.Machine

/-- After `k` rounds the bits that come from below `k` stand at their place and the others are still zero. -/
theorem getLsbD_reflectRounds {n k : Nat} (v : BitVec n) (w i : Nat) (hk : k ≤ w) :
    (reflectRounds v w k).getLsbD i = (decide (i < w ∧ w - 1 - i < k) && v.getLsbD (w - 1 - i)) := by
  induction k with
  | zero => simp
  | succ k ih =>
    have ih := ih (Nat.le_of_succ_le hk)
    rw [reflectRounds_succ]
    by_cases hi : w - 1 - k = i
    · have hback : w - 1 - i = k := by omega
      have hiw : i < w := by omega
      have hzero : (reflectRounds v w k).getLsbD i = false := by simp [ih, hback]
      rw [hback]
      cases v.getLsbD k
      · rw [if_neg Bool.false_ne_true, hzero, Bool.and_false]
      · simp [hi, hiw]
    · have hround : (i < w ∧ w - 1 - i < k + 1) ↔ (i < w ∧ w - 1 - i < k) := by omega
      rw [decide_eq_decide.mpr hround, ← ih]
      split <;> simp [hi]

/-- The bits of a reflection (40_table.md R60). -/
theorem getLsbD_reflect {n : Nat} (v : BitVec n) (w i : Nat) :
    (reflect v w).getLsbD i = (decide (i < w) && v.getLsbD (w - 1 - i)) := by
  have hrange : (i < w ∧ w - 1 - i < w) ↔ i < w := by omega
  rw [reflect, getLsbD_reflectRounds v w i (Nat.le_refl w), decide_eq_decide.mpr hrange]

theorem getLsbD_reflect_of_lt {n : Nat} (v : BitVec n) {w i : Nat} (hi : i < w) :
    (reflect v w).getLsbD i = v.getLsbD (w - 1 - i) := by
  rw [getLsbD_reflect, decide_eq_true hi, Bool.true_and]

variable {w : Nat} (a c : BitVec w)

@[simp] theorem reflect_reflect : reflect (reflect a w) w = a := by
  refine BitVec.eq_of_getLsbD_eq fun i hi => ?_
  rw [getLsbD_reflect_of_lt _ hi, getLsbD_reflect_of_lt _ (by omega), show w - 1 - (w - 1 - i) = i by omega]

theorem reflect_xor : reflect (a ^^^ c) w = reflect a w ^^^ reflect c w := by
  refine BitVec.eq_of_getLsbD_eq fun i hi => ?_
  simp only [BitVec.getLsbD_xor, getLsbD_reflect_of_lt _ hi]

@[simp] theorem reflect_zero : reflect (0#w) w = 0#w := by
  refine BitVec.eq_of_getLsbD_eq fun i hi => ?_
  simp only [getLsbD_reflect_of_lt _ hi, BitVec.getLsbD_zero]

@[simp] theorem reflect_allOnes : reflect (BitVec.allOnes w) w = BitVec.allOnes w := by
  refine BitVec.eq_of_getLsbD_eq fun i hi => ?_
  rw [getLsbD_reflect_of_lt _ hi, BitVec.getLsbD_allOnes, BitVec.getLsbD_allOnes]
  exact decide_eq_decide.mpr (by omega)

/-- Complementing is XOR with all-ones, which a reflection keeps. -/
theorem reflect_not : reflect (~~~a) w = ~~~(reflect a w) := by
  rw [← BitVec.xor_allOnes, reflect_xor, reflect_allOnes, BitVec.xor_allOnes]

@[simp] theorem reflect8_reflect8 (b : Byte) : reflect8 (reflect8 b) = b := reflect_reflect b

@[simp] theorem reflect64_reflect64 (s : Word64) : reflect64 (reflect64 s) = s := reflect_reflect s

theorem reflect8_xor (b d : Byte) : reflect8 (b ^^^ d) = reflect8 b ^^^ reflect8 d := reflect_xor b d

theorem reflect64_xor (s t : Word64) : reflect64 (s ^^^ t) = reflect64 s ^^^ reflect64 t := reflect_xor s t

/-- Reflecting turns a left shift into a right shift. -/
theorem reflect64_shiftLeft (s : Word64) (k : Nat) : reflect64 (s <<< k) = reflect64 s >>> k := by
  refine BitVec.eq_of_getLsbD_eq fun i hi => ?_
  rw [reflect64, getLsbD_reflect_of_lt _ hi, BitVec.getLsbD_shiftLeft, BitVec.getLsbD_ushiftRight, reflect64,
    getLsbD_reflect]
  by_cases hk : k + i < 64
  · have hkeep : ¬(64 - 1 - i < k) := by omega
    have hplace : 64 - 1 - (k + i) = 64 - 1 - i - k := by omega
    have hin : 64 - 1 - i < 64 := by omega
    simp only [hk, hkeep, hplace, hin, decide_true, decide_false, Bool.not_false, Bool.true_and]
  · have hlost : 64 - 1 - i < k := by omega
    simp [hk, hlost]

/-- A byte placed in the high byte is reflected to the reflected byte in the low byte. -/
theorem reflect64_highByte (b : Byte) : reflect64 (b.setWidth 64 <<< 56) = (reflect8 b).setWidth 64 := by
  refine BitVec.eq_of_getLsbD_eq fun i hi => ?_
  rw [reflect64, getLsbD_reflect_of_lt _ hi, BitVec.getLsbD_shiftLeft, BitVec.getLsbD_setWidth,
    BitVec.getLsbD_setWidth, reflect8, getLsbD_reflect]
  by_cases h8 : i < 8
  · have hkeep : ¬(64 - 1 - i < 56) := by omega
    have hplace : 64 - 1 - i - 56 = 8 - 1 - i := by omega
    have hin : 64 - 1 - i < 64 := by omega
    have hbyte : 8 - 1 - i < 64 := by omega
    simp only [h8, hi, hin, hbyte, hkeep, hplace, decide_true, decide_false, Bool.not_false, Bool.true_and]
  · have hlost : 64 - 1 - i < 56 := by omega
    simp [h8, hlost]

end Sys2Proof.Machine

/-! PROOF. The rounds of the table's construction (40_table.md R62), its entries as a GF(2)-linear function of the index
(R64), and the reflected construction (R65). -/

namespace Sys2Proof.Machine

theorem polySteps_eq_iterate (k : Nat) (w : Word64) : polySteps k w = polyStep^[k] w := by
  induction k generalizing w with
  | zero => rfl
  | succ k ih => rw [polySteps_succ, Function.iterate_succ_apply, ih]

/-- One more round may be taken last as well as first. -/
theorem polySteps_polyStep (k : Nat) (w : Word64) : polySteps k (polyStep w) = polyStep (polySteps k w) := by
  rw [polySteps_eq_iterate, polySteps_eq_iterate, ← Function.iterate_succ_apply, Function.iterate_succ_apply']

theorem polyStep_of_msb_false {w : Word64} (h : w.getLsbD 63 = false) : polyStep w = w <<< 1 := by
  rw [polyStep, h]
  rfl

theorem tableEntry_xor (a c : Byte) : tableEntry (a ^^^ c) = tableEntry a ^^^ tableEntry c := by
  simp only [tableEntry, BitVec.setWidth_xor, BitVec.shiftLeft_xor_distrib, polySteps_xor]

/-- Doubling an index below 128 shifts it one place up within the high byte, which is a round that drops nothing. -/
theorem tableEntry_double {i : Byte} (hi : i.toNat < 128) : tableEntry (i + i) = polyStep (tableEntry i) := by
  have hmsb : (i.setWidth 64 <<< 56).getLsbD 63 = false := by
    have hbit : i.getLsbD 7 = false := Nat.testBit_lt_two_pow hi
    simpa using hbit
  have hshift : (i + i).setWidth 64 <<< 56 = (i.setWidth 64 <<< 56) <<< 1 := by
    apply BitVec.eq_of_toNat_eq
    simp only [BitVec.toNat_shiftLeft, BitVec.toNat_setWidth, BitVec.toNat_add, Nat.shiftLeft_eq]
    omega
  rw [tableEntry, tableEntry, hshift, ← polyStep_of_msb_false hmsb, polySteps_polyStep]

/-- By linearity, distinct low bytes need only be seen against entry 0: no other entry has the low byte 0. -/
theorem tableEntry_lowByte_injective {a c : Byte} (h : (tableEntry a).setWidth 8 = (tableEntry c).setWidth 8) :
    a = c := by
  have hkernel : ∀ d : Byte, (tableEntry d).setWidth 8 = 0#8 → d = 0#8 := by decide +kernel
  refine BitVec.xor_eq_zero_iff.mp (hkernel _ ?_)
  rw [tableEntry_xor, BitVec.setWidth_xor, h, BitVec.xor_self]

/-- A round to the right on the reflection is a round to the left, reflected. -/
theorem polyStepRight_reflect64 (w : Word64) : polyStepRight (reflect64 w) = reflect64 (polyStep w) := by
  have hbit : (reflect64 w).getLsbD 0 = w.getLsbD 63 := getLsbD_reflect_of_lt w (by decide)
  rw [polyStepRight, polyStep, hbit]
  cases w.getLsbD 63
  · exact (reflect64_shiftLeft w 1).symm
  · simp only [if_true, reflect64_xor, reflect64_shiftLeft, polyReflected]

theorem polyStepsRight_reflect64 (k : Nat) (w : Word64) :
    polyStepsRight k (reflect64 w) = reflect64 (polySteps k w) := by
  induction k generalizing w with
  | zero => rfl
  | succ k ih => rw [polyStepsRight_succ, polyStepRight_reflect64, ih, polySteps_succ]

theorem tableRef_eq (i : Byte) : tableRef i = reflect64 (tableEntry (reflect8 i)) := by
  rw [tableEntry, ← polyStepsRight_reflect64, reflect64_highByte, reflect8_reflect8, tableRef]

theorem table41_eq (i : Byte) : table41 i = tableEntry (reflect8 i) := rfl

theorem table41_reflect8_xor (t b : Byte) : table41 (reflect8 t ^^^ b) = tableEntry (t ^^^ reflect8 b) := by
  rw [table41_eq, reflect8_xor, reflect8_reflect8]

theorem fold41_eq_fold (s : Word64) (b : Byte) : fold41 s b = fold s b := by
  rw [fold41, table41_reflect8_xor, fold, tableIndex]

end Sys2Proof.Machine

/-! PROOF. Words as polynomials over GF(2) (40_table.md R64): `gf2` of the word operations. -/

namespace Sys2Proof

open Polynomial

variable {n : Nat}

theorem coeff_gf2 (v : BitVec n) (k : Nat) : (gf2 v).coeff k = if v.getLsbD k then 1 else 0 := by
  have hterm : ∀ j, (if v.getLsbD j then X ^ j else 0 : (ZMod 2)[X]).coeff k =
      if j = k then (if v.getLsbD k then 1 else 0) else 0 := by
    intro j
    by_cases hj : j = k
    · subst hj
      rw [if_pos rfl]
      split <;> simp
    · rw [if_neg hj]
      split <;> simp [coeff_X_pow, Ne.symm hj]
  rw [gf2, finsetSum_coeff, Finset.sum_congr rfl fun j _ => hterm j, Finset.sum_ite_eq']
  by_cases hk : k < n
  · rw [if_pos (Finset.mem_range.mpr hk)]
  · rw [if_neg (by simpa using hk), BitVec.getLsbD_of_ge v k (by omega)]
    rfl

theorem degree_gf2_lt (v : BitVec n) : (gf2 v).degree < n := by
  refine (degree_lt_iff_coeff_zero _ _).mpr fun k hk => ?_
  rw [coeff_gf2, BitVec.getLsbD_of_ge v k hk]
  rfl

@[simp] theorem gf2_zero : gf2 (0#n) = 0 := by
  ext k
  rw [coeff_gf2, BitVec.getLsbD_zero]
  rfl

theorem gf2_xor (a c : BitVec n) : gf2 (a ^^^ c) = gf2 a + gf2 c := by
  ext k
  rw [coeff_add, coeff_gf2, coeff_gf2, coeff_gf2, BitVec.getLsbD_xor]
  cases a.getLsbD k <;> cases c.getLsbD k <;> decide

/-- Changing the width does not change the polynomial as long as no bit is lost. -/
theorem gf2_setWidth {m : Nat} (v : BitVec n) (h : ∀ k, m ≤ k → v.getLsbD k = false) :
    gf2 (v.setWidth m) = gf2 v := by
  ext k
  rw [coeff_gf2, coeff_gf2, BitVec.getLsbD_setWidth]
  by_cases hk : k < m
  · rw [decide_eq_true hk, Bool.true_and]
  · rw [h k (by omega), Bool.and_false]

/-- Multiplying by x^k is a left shift by `k`, plus the bits it drops, read from x^n up. -/
theorem gf2_mul_X_pow {k : Nat} (hk : k ≤ n) (v : BitVec n) :
    gf2 v * X ^ k = gf2 (v <<< k) + gf2 (v >>> (n - k)) * X ^ n := by
  ext j
  rw [coeff_add, coeff_mul_X_pow', coeff_mul_X_pow', coeff_gf2, coeff_gf2, coeff_gf2, BitVec.getLsbD_shiftLeft,
    BitVec.getLsbD_ushiftRight]
  by_cases hlow : j < n
  · have hn : ¬n ≤ j := by omega
    by_cases hkj : k ≤ j <;> simp [hlow, hn, hkj]
  · have hn : n ≤ j := by omega
    have hkj : k ≤ j := by omega
    have hplace : n - k + (j - n) = j - k := by omega
    simp [hlow, hn, hkj, hplace]

/-- Of a word shifted down to its highest bit only that bit is left. -/
theorem gf2_ushiftRight_last (v : BitVec (n + 1)) : gf2 (v >>> n) = C (if v.getLsbD n then 1 else 0) := by
  ext k
  rw [coeff_gf2, BitVec.getLsbD_ushiftRight, coeff_C]
  by_cases hk : k = 0
  · rw [if_pos hk, hk]
    rfl
  · rw [if_neg hk, BitVec.getLsbD_of_ge v (n + k) (by omega)]
    rfl

end Sys2Proof

/-! PROOF. The rounds, the fold and whole messages as arithmetic modulo the generator `x^64 + POLY(x)`
(40_table.md R64). -/

namespace Sys2Proof.Machine

open Polynomial

/-- The generator `G = x^64 + POLY(x)` of 40_table.md R64. -/
noncomputable def generator : (ZMod 2)[X] := X ^ 64 + gf2 Config.poly

/-- The residue class modulo the generator. -/
noncomputable abbrev residue : (ZMod 2)[X] →+* AdjoinRoot generator := AdjoinRoot.mk generator

theorem generator_monic : generator.Monic := monic_X_pow_add (degree_gf2_lt Config.poly)

theorem degree_generator : generator.degree = (64 : Nat) := by
  have hlower : (gf2 Config.poly).degree < (X ^ 64 : (ZMod 2)[X]).degree := by
    rw [degree_X_pow]
    exact degree_gf2_lt Config.poly
  rw [generator, degree_add_eq_left_of_degree_lt hlower, degree_X_pow]

/-- A word is the remainder of every polynomial of its residue class, since its degree is below 64. -/
theorem gf2_eq_modByMonic {v : Word64} {p : (ZMod 2)[X]} (h : residue (gf2 v) = residue p) :
    gf2 v = p %ₘ generator := by
  have hdegree : (gf2 v).degree < generator.degree := by
    rw [degree_generator]
    exact degree_gf2_lt v
  calc gf2 v
    _ = gf2 v %ₘ generator := ((modByMonic_eq_self_iff generator_monic).mpr hdegree).symm
    _ = p %ₘ generator := modByMonic_eq_of_dvd_sub generator_monic (AdjoinRoot.mk_eq_mk.mp h)

/-- Modulo the generator x^64 is `POLY`. -/
theorem residue_X_pow_64 : residue (X ^ 64) = residue (gf2 Config.poly) := by
  rw [AdjoinRoot.mk_eq_mk, CharTwo.sub_eq_add]
  exact dvd_refl generator

/-- A round multiplies by x modulo the generator: the bit it shifts out is reduced by `POLY`. -/
theorem residue_polyStep (w : Word64) : residue (gf2 (polyStep w)) = residue (gf2 w * X) := by
  have hshift := gf2_mul_X_pow (show 1 ≤ 64 by decide) w
  rw [pow_one] at hshift
  rw [hshift, map_add, map_mul, residue_X_pow_64, polyStep]
  split
  case isTrue h =>
    rw [gf2_ushiftRight_last, if_pos h, map_one, map_one, one_mul, gf2_xor, map_add]
  case isFalse h =>
    rw [gf2_ushiftRight_last, if_neg h, map_zero, map_zero, zero_mul, add_zero]

theorem residue_polySteps (k : Nat) (w : Word64) : residue (gf2 (polySteps k w)) = residue (gf2 w * X ^ k) := by
  induction k generalizing w with
  | zero => rw [polySteps_zero, pow_zero, mul_one]
  | succ k ih => rw [polySteps_succ, ih, map_mul, residue_polyStep, ← map_mul, mul_assoc, ← pow_succ']

/-- The index placed in the high byte is the index times x^56. -/
theorem gf2_highByte (i : Byte) : gf2 (i.setWidth 64 <<< 56) = gf2 i * X ^ 56 := by
  have hwide : gf2 (i.setWidth 64) = gf2 i := gf2_setWidth i fun k hk => i.getLsbD_of_ge k (by omega)
  have hdropped : i.setWidth 64 >>> (64 - 56) = 0#64 := by
    refine BitVec.eq_of_getLsbD_eq fun k _ => ?_
    rw [BitVec.getLsbD_ushiftRight, BitVec.getLsbD_setWidth, i.getLsbD_of_ge _ (by omega), Bool.and_false,
      BitVec.getLsbD_zero]
  rw [← hwide, gf2_mul_X_pow (by decide), hdropped, gf2_zero, zero_mul, add_zero]

theorem residue_tableEntry (i : Byte) : residue (gf2 (tableEntry i)) = residue (gf2 i * X ^ 64) := by
  rw [tableEntry, residue_polySteps, gf2_highByte, mul_assoc, ← pow_add]

/-- A fold multiplies the accumulator by x^8 and adds the reflected byte times x^64, modulo the generator. -/
theorem residue_fold (s : Word64) (b : Byte) :
    residue (gf2 (fold s b)) = residue (gf2 s * X ^ 8 + gf2 (reflect8 b) * X ^ 64) := by
  have htop : gf2 ((s >>> 56).setWidth 8) = gf2 (s >>> 56) := gf2_setWidth _ fun k hk => by
    rw [BitVec.getLsbD_ushiftRight, BitVec.getLsbD_of_ge s (56 + k) (by omega)]
  rw [fold, gf2_xor, map_add, residue_tableEntry, tableIndex, gf2_xor, htop, ← map_add,
    gf2_mul_X_pow (show 8 ≤ 64 by decide) s]
  exact congrArg residue (by ring)

/-- The polynomial of a message: its reflected bytes, the first byte highest. -/
noncomputable def messagePoly (bytes : List Byte) : (ZMod 2)[X] :=
  bytes.foldl (fun p b => p * X ^ 8 + gf2 (reflect8 b)) 0

theorem messagePoly_concat (bytes : List Byte) (b : Byte) :
    messagePoly (bytes ++ [b]) = messagePoly bytes * X ^ 8 + gf2 (reflect8 b) :=
  List.foldl_append

theorem residue_foldBytes (s : Word64) (bytes : List Byte) :
    residue (gf2 (foldBytes s bytes)) =
      residue (gf2 s * X ^ (8 * bytes.length) + messagePoly bytes * X ^ 64) := by
  induction bytes using List.reverseRecOn with
  | nil => simp [messagePoly]
  | append_singleton bytes b ih =>
    rw [foldBytes_concat, residue_fold, map_add, map_mul, ih, ← map_mul, ← map_add, messagePoly_concat,
      List.length_append, List.length_singleton]
    exact congrArg residue (by ring)

end Sys2Proof.Machine

/-! PROOF. The obligations of 40_table.md. -/

namespace Sys2Proof.Machine

/-- Settles O12: the bits of a reflection, of which only those of the value below the width are read. -/
theorem reflectReversesTheLowBits : Obligations.ReflectReversesTheLowBits := by
  refine ⟨fun n v w i hi => getLsbD_reflect_of_lt v hi, fun n v w i hi => (reflect v w).getLsbD_of_ge i hi,
    fun n u v w huv => ?ignored, by decide⟩
  case ignored =>
    refine BitVec.eq_of_getLsbD_eq fun i hi => ?_
    rw [getLsbD_reflect_of_lt u hi, getLsbD_reflect_of_lt v hi, huv _ (by omega)]

/-- Settles O13, by the bits of a reflection. -/
theorem reflectIsALinearInvolution : Obligations.ReflectIsALinearInvolution :=
  fun _ a c => ⟨reflect_reflect a, reflect_xor a c, reflect_zero, reflect_allOnes, reflect_not a⟩

/-- Settles O14: the rounds are the iterated round. -/
theorem tableEntryIsEightReductionRounds : Obligations.TableEntryIsEightReductionRounds :=
  ⟨fun i => polySteps_eq_iterate 8 (i.setWidth 64 <<< 56), by decide, by decide, by decide, by decide, by decide⟩

/-- Settles O15: the listing is the list of the computed entries. -/
theorem tableListingIsTheComputedTable : Obligations.TableListingIsTheComputedTable :=
  ⟨by rw [tableListing_eq_map_tableEntry, List.length_map, List.length_range], tableListing_getElem?⟩

/-- Settles O16: the rounds respect XOR, and doubling shifts the index by one more place. -/
theorem tableIsLinear : Obligations.TableIsLinear :=
  ⟨by decide, by decide, tableEntry_xor, fun _ => tableEntry_double⟩

/-- Settles O17: distinctness by linearity, the XOR and the sum over the listing. -/
theorem tableEntriesAreDistinctAndSumAsListed : Obligations.TableEntriesAreDistinctAndSumAsListed := by
  rw [Obligations.TableEntriesAreDistinctAndSumAsListed, ← tableListing_eq_map_tableEntry]
  exact ⟨fun a c => tableEntry_lowByte_injective, by decide +kernel, by decide +kernel⟩

/-- Settles O18: reflecting every round turns one construction into the other. -/
theorem alternativeTablesGiveTheSameFold : Obligations.AlternativeTablesGiveTheSameFold := by
  refine ⟨tableRef_eq, fun i => ⟨table41_eq i, ?reflected⟩, table41_reflect8_xor, fold41_eq_fold, by decide, by decide,
    by decide, by decide, by decide⟩
  case reflected => rw [tableRef_eq, reflect64_reflect64, table41_eq]

/-- Settles O19: eight rounds after the shift by 56 multiply by x^64 modulo the generator. -/
theorem tableEntryIsPolynomialRemainder : Obligations.TableEntryIsPolynomialRemainder :=
  fun i => gf2_eq_modByMonic (residue_tableEntry i)

/-- Settles O20, by induction on the bytes, each fold being known modulo the generator. -/
theorem foldedMessageIsPolynomialRemainder : Obligations.FoldedMessageIsPolynomialRemainder :=
  fun s bytes => gf2_eq_modByMonic (residue_foldBytes s bytes)

end Sys2Proof.Machine

/-! PROOF. Idle events (41_engine.md R79): a step touches the host's list only by taking its first event, an idle one does
nothing else, and so a run may leave the idle events out. -/

namespace Sys2Proof.Machine

variable {s : State} {e : HostEvent}

/-- What a step does to the registers depends on the event it takes, and not on the events after it. -/
theorem exists_step_of_event (s : State) (e : HostEvent) :
    ∃ t : State, ∀ rest, step { s with inbox := e :: rest } = .next { t with inbox := rest } := by
  simp only [step, State.takeInput]
  cases e.input with
  | pause => exact ⟨s, fun _ => rfl⟩
  | reset => exact ⟨State.reset, fun _ => rfl⟩
  | word cw =>
    simp only [acceptInput_word, acceptWord]
    cases decode cw with
    | reserved why => exact ⟨s, fun _ => rfl⟩
    | command i =>
      cases i with
      | nop => exact ⟨s, fun _ => rfl⟩
      | init => exact ⟨s.writeAcc Config.initAcc, fun _ => rfl⟩
      | update b => exact ⟨s.writeAcc (fold s.acc b), fun _ => rfl⟩
      | final => exact ⟨(s.writeResult (finalize s.acc)).writeAcc Config.initAcc, fun _ => rfl⟩

/-- An idle event is no reset, and the engine leaves the state as it is, with a pause, a `NOP` or a reserved word. -/
theorem acceptInput_of_idle (h : e.idle = true) (s : State) : acceptInput e.input s = .next s := by
  simp only [HostEvent.idle, Bool.and_eq_true, Bool.not_eq_true'] at h
  obtain ⟨hreset, hidle⟩ := h
  cases hword : e.word with
  | none => simp [HostEvent.input, hreset, hword]
  | some cw =>
    simp only [HostEvent.input, hreset, hword, Bool.false_eq_true, if_false, acceptInput_word]
    cases hdec : decode cw with
    | reserved why => exact acceptWord_reserved hdec s
    | command i =>
      obtain rfl : i = .nop := by simpa [hword, hdec] using hidle
      rw [acceptWord_command hdec, exec_nop]

theorem step_of_idle {rest : List HostEvent} (hin : s.inbox = e :: rest) (h : e.idle = true) :
    step s = .next { s with inbox := rest } := by
  rw [step, State.takeInput_cons hin, acceptInput_of_idle h]

/-- A run ends as it does on the events that are not idle alone. -/
theorem run_eq_run_filter_not_idle (es rest : List HostEvent) (hin : s.inbox = es ++ rest) :
    run es.length s =
      run (es.filter fun e => !e.idle).length { s with inbox := es.filter (fun e => !e.idle) ++ rest } := by
  induction es generalizing s with
  | nil =>
    have hrest : s.inbox = rest := hin
    rw [← hrest]
    rfl
  | cons e es ih =>
    cases hidle : e.idle with
    | true =>
      have hdrop : (e :: es).filter (fun e => !e.idle) = es.filter fun e => !e.idle :=
        List.filter_cons_of_neg (by simp [hidle])
      rw [hdrop, List.length_cons, run_succ _ (step_of_idle hin hidle)]
      exact ih rfl
    | false =>
      have hkeep : (e :: es).filter (fun e => !e.idle) = e :: es.filter fun e => !e.idle :=
        List.filter_cons_of_pos (by simp [hidle])
      obtain ⟨t, ht⟩ := exists_step_of_event s e
      have hstep : step s = .next { t with inbox := es ++ rest } := by
        rw [← ht, ← List.cons_append, ← hin]
      rw [hkeep, List.length_cons, run_succ _ hstep, List.length_cons, List.cons_append, run_succ _ (ht _)]
      exact ih rfl

end Sys2Proof.Machine

/-! PROOF. The obligations of 41_engine.md on streams of commands. -/

namespace Sys2Proof.Machine

/-- Settles O48: without the idle events the run is that of the computation alone. -/
theorem streamingWithIdleWordsGivesTheSameChecksum : Obligations.StreamingWithIdleWordsGivesTheSameChecksum := by
  intro s bytes es rest hes hin
  have hlength : (eventsOf (checksumCommands bytes)).length = bytes.length + 2 := by
    simp [eventsOf, checksumCommands]
  rw [run_eq_run_filter_not_idle es rest hin, hes, hlength]
  exact computationGivesTheChecksumFromEveryState.1 _ bytes rest rfl

/-- Settles O46: the run of the bytes' `UPDATE`s is one fold after the other. -/
theorem updatesFoldTheirBytesInOrder : Obligations.UpdatesFoldTheirBytesInOrder :=
  ⟨fun _ bytes _ hin => run_updates bytes 0 hin, foldBytes_append⟩

/-- Settles O39: the word of `NOP` is an idle event, so a run of them is the run of no events. -/
theorem nopLeavesTheStateUnchanged : Obligations.NopLeavesTheStateUnchanged := by
  refine ⟨decode_encode .nop, exec_nop, fun s k rest hin => ?_⟩
  have hnone : (List.replicate k (HostEvent.ofWord 0x0000#16)).filter (fun e => !e.idle) = [] :=
    List.filter_replicate_of_neg (by decide)
  have hrun := run_eq_run_filter_not_idle _ rest hin
  rwa [List.length_replicate, hnone] at hrun

end Sys2Proof.Machine

/-! PROOF. The fold (41_engine.md R70) as eight rounds on one word, its bit-serial form (R80), its linearity, what it does
not lose (R81), and its reflected form (R82). -/

namespace Sys2Proof.Machine

/-- A byte placed in bits 63..56 is what those bits hold. -/
theorem getLsbD_highByte (b : Byte) {i : Nat} (hi : 56 ≤ i) :
    (b.setWidth 64 <<< 56).getLsbD i = (decide (i < 64) && b.getLsbD (i - 56)) := by
  have hkeep : ¬i < 56 := by omega
  rw [BitVec.getLsbD_shiftLeft, BitVec.getLsbD_setWidth, decide_eq_false hkeep]
  by_cases hi64 : i < 64
  · have hin : i - 56 < 64 := by omega
    simp [hi64, hin]
  · simp [hi64]

/-- Eight places up, nothing of a byte in bits 63..56 is left. -/
theorem highByte_shiftLeft_eight (b : Byte) : b.setWidth 64 <<< 56 <<< 8 = 0#64 := by
  rw [← BitVec.shiftLeft_add]
  exact BitVec.shiftLeft_eq_zero (Nat.le_refl 64)

theorem topByte_highByte (b : Byte) : (b.setWidth 64 <<< 56 >>> 56).setWidth 8 = b := by
  refine BitVec.eq_of_getLsbD_eq fun i hi => ?_
  have hin : 56 + i < 64 := by omega
  rw [BitVec.getLsbD_setWidth, BitVec.getLsbD_ushiftRight, getLsbD_highByte b (by omega)]
  simp [hi, hin]

theorem getLsbD_topByte (s : Word64) {i : Nat} (hi : i < 8) :
    ((s >>> 56).setWidth 8).getLsbD i = s.getLsbD (56 + i) := by
  rw [BitVec.getLsbD_setWidth, BitVec.getLsbD_ushiftRight, decide_eq_true hi, Bool.true_and]

/-- Rounds that shift out no set bit are a shift. -/
theorem polySteps_eq_shiftLeft (k : Nat) {w : Word64} (h : ∀ i, 64 - k ≤ i → w.getLsbD i = false) :
    polySteps k w = w <<< k := by
  induction k generalizing w with
  | zero => exact (BitVec.shiftLeft_zero w).symm
  | succ k ih =>
    have hshifted : ∀ i, 64 - k ≤ i → (w <<< 1).getLsbD i = false := fun i hi => by
      by_cases hi0 : i = 0
      · simp [hi0]
      · rw [BitVec.getLsbD_shiftLeft, h (i - 1) (by omega), Bool.and_false]
    rw [polySteps_succ, polyStep_of_msb_false (h 63 (by omega)), ih hshifted, ← BitVec.shiftLeft_add, Nat.add_comm]

/-- Eight rounds look the high byte up in the table and shift the rest. -/
theorem polySteps_eight (w : Word64) : polySteps 8 w = tableEntry ((w >>> 56).setWidth 8) ^^^ w <<< 8 := by
  generalize hhigh : ((w >>> 56).setWidth 8).setWidth 64 <<< 56 = high
  have hrest : ∀ i, 64 - 8 ≤ i → (high ^^^ w).getLsbD i = false := fun i hi => by
    rw [BitVec.getLsbD_xor, ← hhigh, getLsbD_highByte _ hi]
    by_cases hi64 : i < 64
    · rw [getLsbD_topByte w (by omega), Nat.add_sub_cancel' hi, decide_eq_true hi64, Bool.true_and, Bool.xor_self]
    · rw [decide_eq_false hi64, Bool.false_and, BitVec.getLsbD_of_ge w i (by omega), Bool.xor_self]
  calc polySteps 8 w
    _ = polySteps 8 (high ^^^ (high ^^^ w)) := by rw [← BitVec.xor_assoc, BitVec.xor_self, BitVec.zero_xor]
    _ = polySteps 8 high ^^^ (high ^^^ w) <<< 8 := by rw [polySteps_xor, polySteps_eq_shiftLeft 8 hrest]
    _ = tableEntry ((w >>> 56).setWidth 8) ^^^ w <<< 8 := by
      rw [tableEntry, hhigh, BitVec.shiftLeft_xor_distrib, ← hhigh, highByte_shiftLeft_eight, BitVec.zero_xor]

/-- The fold puts the reflected byte on the high byte of the accumulator and takes eight rounds. -/
theorem fold_eq_polySteps (s : Word64) (b : Byte) :
    fold s b = polySteps 8 (s ^^^ (reflect8 b).setWidth 64 <<< 56) := by
  rw [polySteps_eight, BitVec.ushiftRight_xor_distrib, BitVec.setWidth_xor, topByte_highByte,
    BitVec.shiftLeft_xor_distrib, highByte_shiftLeft_eight, BitVec.xor_zero, fold, tableIndex]

/-- A round on the sum of two words takes only the highest bit of the second with the first: the rest is shifted. -/
theorem polyStep_xor_eq_foldBit (s g : Word64) : polyStep (s ^^^ g) = foldBit s (g.getLsbD 63) ^^^ g <<< 1 := by
  rw [polyStep, foldBit, BitVec.getLsbD_xor, BitVec.shiftLeft_xor_distrib]
  split
  · ac_rfl
  · rfl

/-- So `k` rounds take in the `k` highest bits of the second word, one a round. -/
theorem polySteps_xor_eq_foldl_foldBit {k : Nat} (hk : k ≤ 64) (s g : Word64) :
    polySteps k (s ^^^ g) =
      (List.range k).foldl (fun t j => foldBit t (g.getLsbD (63 - j))) s ^^^ g <<< k := by
  induction k with
  | zero => simp
  | succ k ih =>
    have hbit : (g <<< k).getLsbD 63 = g.getLsbD (63 - k) := by
      have hkeep : ¬63 < k := by omega
      rw [BitVec.getLsbD_shiftLeft, decide_eq_false hkeep]
      rfl
    rw [polySteps_succ, polySteps_polyStep, ih (by omega), polyStep_xor_eq_foldBit, hbit, List.range_succ,
      List.foldl_append, ← BitVec.shiftLeft_add]
    rfl

/-- Reflected and placed high, the byte gives its bits from bit 0 up, one a round (41_engine.md R80). -/
theorem fold_eq_foldBits (s : Word64) (b : Byte) : fold s b = foldBits s b := by
  rw [fold_eq_polySteps, polySteps_xor_eq_foldl_foldBit (by decide), highByte_shiftLeft_eight, BitVec.xor_zero, foldBits]
  refine List.foldl_ext _ _ _ fun t j hj => ?_
  have hj : j < 8 := List.mem_range.mp hj
  have hplace : 8 - 1 - (63 - j - 56) = j := by omega
  rw [getLsbD_highByte _ (by omega), reflect8, getLsbD_reflect_of_lt b (by omega), hplace,
    decide_eq_true (by omega), Bool.true_and]

theorem tableIndex_xor (s s' : Word64) (b b' : Byte) :
    tableIndex (s ^^^ s') (b ^^^ b') = tableIndex s b ^^^ tableIndex s' b' := by
  simp only [tableIndex, BitVec.ushiftRight_xor_distrib, BitVec.setWidth_xor, reflect8_xor]
  ac_rfl

theorem fold_xor (s s' : Word64) (b b' : Byte) : fold (s ^^^ s') (b ^^^ b') = fold s b ^^^ fold s' b' := by
  simp only [fold, tableIndex_xor, tableEntry_xor, BitVec.shiftLeft_xor_distrib]
  ac_rfl

/-- Shifting the accumulator down and cutting to a byte is reading its bits 63..56 (41_engine.md R70). -/
theorem fold_eq_readTable (s : Word64) (b : Byte) :
    fold s b = readTable (s.extractLsb' 56 8 ^^^ reflect8 b) ^^^ s <<< 8 := by
  rw [fold, tableIndex, BitVec.setWidth_ushiftRight_eq_extractLsb, readTable]

/-- The shift leaves the low byte of a fold to the table entry. -/
theorem fold_setWidth (s : Word64) (b : Byte) : (fold s b).setWidth 8 = (tableEntry (tableIndex s b)).setWidth 8 := by
  have hshift : (s <<< 8).setWidth 8 = 0#8 := by
    refine BitVec.eq_of_getLsbD_eq fun i hi => ?_
    simp [hi]
  rw [fold, BitVec.setWidth_xor, hshift, BitVec.xor_zero]

/-- A fold tells which entry was read, since the entries differ in their low bytes, and so what was XORed onto it. -/
theorem fold_eq_fold {s s' : Word64} {b b' : Byte} (h : fold s b = fold s' b') :
    tableIndex s b = tableIndex s' b' ∧ s <<< 8 = s' <<< 8 := by
  have hindex : tableIndex s b = tableIndex s' b' :=
    tableEntry_lowByte_injective (by rw [← fold_setWidth, ← fold_setWidth, h])
  rw [fold, fold, hindex, BitVec.xor_right_inj] at h
  exact ⟨hindex, h⟩

theorem reflect8_injective : Function.Injective reflect8 := Function.Involutive.injective reflect8_reflect8

theorem fold_injective_byte (s : Word64) : Function.Injective (fold s) := fun b b' h => by
  obtain ⟨hindex, -⟩ := fold_eq_fold h
  exact reflect8_injective ((BitVec.xor_right_inj _).mp hindex)

theorem fold_injective_acc (b : Byte) : Function.Injective fun s => fold s b := fun s s' h => by
  obtain ⟨hindex, hshift⟩ := fold_eq_fold h
  have htop := congrArg BitVec.toNat ((BitVec.xor_left_inj _).mp hindex)
  have hrest := congrArg BitVec.toNat hshift
  simp only [BitVec.toNat_setWidth, BitVec.toNat_ushiftRight, BitVec.toNat_shiftLeft, Nat.shiftRight_eq_div_pow,
    Nat.shiftLeft_eq] at htop hrest
  have := s.isLt
  have := s'.isLt
  exact BitVec.eq_of_toNat_eq (by omega)

theorem foldBytes_injective_acc (bytes : List Byte) : Function.Injective fun s => foldBytes s bytes := by
  induction bytes with
  | nil => exact fun s s' h => h
  | cons b bs ih => exact fun s s' h => fold_injective_acc b (ih h)

/-- Messages of one length fold linearly, position by position. -/
theorem foldBytes_xor {x y : List Byte} (h : x.length = y.length) (s s' : Word64) :
    foldBytes (s ^^^ s') (List.zipWith (· ^^^ ·) x y) = foldBytes s x ^^^ foldBytes s' y := by
  induction x generalizing y s s' with
  | nil =>
    obtain rfl := List.eq_nil_of_length_eq_zero h.symm
    rfl
  | cons b x ih =>
    cases y with
    | nil => exact absurd h (Nat.succ_ne_zero _)
    | cons b' y => rw [List.zipWith_cons_cons, foldBytes_cons, fold_xor, ih (Nat.succ.inj h), foldBytes_cons, foldBytes_cons]

/-- A reflection brings the high byte down to the low byte. -/
theorem reflect64_setWidth (s : Word64) : (reflect64 s).setWidth 8 = reflect8 ((s >>> 56).setWidth 8) := by
  refine BitVec.eq_of_getLsbD_eq fun i hi => ?_
  have hplace : 56 + (8 - 1 - i) = 64 - 1 - i := by omega
  rw [BitVec.getLsbD_setWidth, decide_eq_true hi, Bool.true_and, reflect64, getLsbD_reflect_of_lt s (by omega), reflect8,
    getLsbD_reflect_of_lt _ hi, getLsbD_topByte s (by omega), hplace]

/-- The index of the right-shifting update is the index of the fold, reflected (41_engine.md R82). -/
theorem foldRef_reflect64 (s : Word64) (b : Byte) : foldRef (reflect64 s) b = reflect64 (fold s b) := by
  have hindex : reflect8 ((reflect64 s ^^^ b.setWidth 64).setWidth 8) = tableIndex s b := by
    rw [BitVec.setWidth_xor, reflect64_setWidth, reflect8_xor, reflect8_reflect8,
      BitVec.setWidth_setWidth_of_le b (by decide), BitVec.setWidth_eq, tableIndex]
  rw [foldRef, tableRef_eq, hindex, fold, reflect64_xor, reflect64_shiftLeft]

theorem foldl_foldRef (s : Word64) (bytes : List Byte) :
    bytes.foldl foldRef (reflect64 s) = reflect64 (foldBytes s bytes) :=
  List.foldl_hom reflect64 foldRef_reflect64

end Sys2Proof.Machine

/-! PROOF. The finalisation (41_engine.md R71) and the whole function (R72). -/

namespace Sys2Proof.Machine

/-- The mask is all-ones, so the finalisation is a complement. -/
theorem finalize_eq_not (s : Word64) : finalize s = ~~~(reflect64 s) := BitVec.xor_allOnes

theorem reflect64_initAcc : reflect64 Config.initAcc = Config.initAcc := reflect_allOnes

/-- The accumulator of no bytes is finalized to 0 (41_engine.md R73). -/
theorem finalize_initAcc : finalize Config.initAcc = 0#64 := by
  rw [finalize_eq_not, reflect64_initAcc]
  rfl

theorem finalize_eq_reflect64_not (s : Word64) : finalize s = reflect64 (~~~s) := by
  rw [finalize_eq_not, reflect64, reflect64, reflect_not]

theorem getLsbD_finalize (s : Word64) {i : Nat} (hi : i < 64) : (finalize s).getLsbD i = !(s.getLsbD (63 - i)) := by
  rw [finalize_eq_not, BitVec.getLsbD_not, reflect64, getLsbD_reflect_of_lt s hi, decide_eq_true hi, Bool.true_and]

theorem finalize_involutive : Function.Involutive finalize := fun s => by
  rw [finalize_eq_not (finalize s), finalize_eq_reflect64_not, reflect64_reflect64, BitVec.not_not]

/-- An odd number of complements is one complement. -/
theorem finalize_xor_xor (s t u : Word64) : finalize (s ^^^ t ^^^ u) = finalize s ^^^ finalize t ^^^ finalize u := by
  have hmask : Config.xorOut = Config.xorOut ^^^ Config.xorOut ^^^ Config.xorOut := by decide
  simp only [finalize, reflect64_xor]
  conv_lhs => rw [hmask]
  ac_rfl

theorem crc64_eq_not_foldl_foldRef (bytes : List Byte) :
    crc64 bytes = ~~~(bytes.foldl foldRef Config.initAcc) := by
  rw [crc64, finalize_eq_not, ← foldl_foldRef, reflect64_initAcc]

/-- After a byte that differs, the accumulators differ to the end. -/
theorem crc64_ne_of_byte_ne (x y : List Byte) {a c : Byte} (h : a ≠ c) : crc64 (x ++ a :: y) ≠ crc64 (x ++ c :: y) := by
  intro heq
  have hacc := finalize_involutive.injective heq
  rw [foldBytes_append, foldBytes_append, foldBytes_cons, foldBytes_cons] at hacc
  exact h (fold_injective_byte _ (foldBytes_injective_acc y hacc))

theorem crc64_xor_xor {x y z : List Byte} (hxy : x.length = y.length) (hyz : y.length = z.length) :
    crc64 x ^^^ crc64 y ^^^ crc64 z = crc64 (List.zipWith (· ^^^ ·) (List.zipWith (· ^^^ ·) x y) z) := by
  have hlength : (List.zipWith (· ^^^ ·) x y).length = z.length := by
    rw [List.length_zipWith, hxy, Nat.min_self, hyz]
  have hinit : Config.initAcc = Config.initAcc ^^^ Config.initAcc ^^^ Config.initAcc := by decide
  calc crc64 x ^^^ crc64 y ^^^ crc64 z
    _ = finalize (foldBytes Config.initAcc x ^^^ foldBytes Config.initAcc y ^^^ foldBytes Config.initAcc z) :=
      (finalize_xor_xor _ _ _).symm
    _ = finalize (foldBytes (Config.initAcc ^^^ Config.initAcc ^^^ Config.initAcc)
          (List.zipWith (· ^^^ ·) (List.zipWith (· ^^^ ·) x y) z)) := by
      rw [foldBytes_xor hlength, foldBytes_xor hxy]
    _ = crc64 (List.zipWith (· ^^^ ·) (List.zipWith (· ^^^ ·) x y) z) := by rw [← hinit, crc64]

end Sys2Proof.Machine

/-! PROOF. The obligations of 41_engine.md on the fold, the finalisation and the whole function. -/

namespace Sys2Proof.Machine

/-- Settles O22: both forms are eight rounds, on the reflected byte all at once or on one bit a round. -/
theorem foldEqualsBitSerialForm : Obligations.FoldEqualsBitSerialForm := fold_eq_foldBits

/-- Settles O23: the index, the table and the shift respect XOR. -/
theorem foldIsJointlyLinear : Obligations.FoldIsJointlyLinear := fold_xor

/-- Settles O24: the table entry and the shifted rest can be read off a fold, and the words are finitely many. -/
theorem foldLosesNothing : Obligations.FoldLosesNothing :=
  ⟨fold_injective_byte, fun b => Finite.injective_iff_bijective.mp (fold_injective_acc b)⟩

/-- Settles O25: no later fold and no finalisation makes two accumulators that differ equal. -/
theorem oneChangedByteChangesTheChecksum : Obligations.OneChangedByteChangesTheChecksum :=
  ⟨fun x y _ _ h => crc64_ne_of_byte_ne x y h, by decide, by decide⟩

/-- Settles O26, by the linearity of the folds, of three messages as of the three equal initial values. -/
theorem checksumOfThreeXoredMessages : Obligations.ChecksumOfThreeXoredMessages :=
  fun _ _ _ => crc64_xor_xor

/-- Settles O27: reflecting the accumulator turns each fold into the right-shifting update. -/
theorem lsbFirstFormIsEquivalent : Obligations.LsbFirstFormIsEquivalent :=
  ⟨fun s b => (foldRef_reflect64 s b).symm, reflect64_initAcc, finalize_eq_not, crc64_eq_not_foldl_foldRef⟩

/-- Settles O28: a complement and a reflection commute, and each undoes itself. -/
theorem finalizeReflectsThenComplements : Obligations.FinalizeReflectsThenComplements :=
  ⟨fun _ => rfl, finalize_involutive, finalize_involutive.bijective, by decide, by decide⟩

/-- Settles O29, by the bits of a reflection. -/
theorem finalizeEquivalentForms : Obligations.FinalizeEquivalentForms :=
  fun s => ⟨finalize_eq_not s, finalize_eq_reflect64_not s, fun _ => getLsbD_finalize s⟩

/-- Settles O21: bits 63..56 of the accumulator are those shifted down; the example by evaluation. -/
theorem foldIsOneTableRead : Obligations.FoldIsOneTableRead :=
  ⟨fold_eq_readTable, by decide, by decide, by decide, by decide⟩

/-- Settles O30: the definition of `crc64`, and its check value by evaluation. -/
theorem checksumFoldsThenFinalizes : Obligations.ChecksumFoldsThenFinalizes :=
  ⟨fun _ => rfl, by decide +kernel⟩

end Sys2Proof.Machine

/-! PROOF. The obligations of 41_engine.md on the single commands. -/

namespace Sys2Proof.Machine

/-- What the host reads after `FINAL`, in terms of the result (41_engine.md R77). -/
theorem exec_final_of_finalize_eq {s : State} {v : Word64} (h : finalize s.acc = v) :
    ∃ t, exec .final s = .next t ∧ t.result = v ∧ t.decLen = textLen (dec v) ∧ t.text = dec v ∧
      t.acc = Config.initAcc := by
  subst h
  exact ⟨_, exec_final s, rfl, rfl, State.text_of_textMatchesResult ⟨rfl, rfl⟩, rfl⟩

theorem dec_zero : dec 0#64 = [0x30#8] := by decide

/-- `FINAL` before any byte gives the result 0 and its text (41_engine.md R73). -/
theorem exec_final_of_initAcc {s : State} (hacc : s.acc = Config.initAcc) :
    ∃ t, exec .final s = .next t ∧ t.result = 0#64 ∧ t.text = [0x30#8] := by
  obtain ⟨t, hexec, hresult, -, htext, -⟩ := exec_final_of_finalize_eq (hacc ▸ finalize_initAcc)
  exact ⟨t, hexec, hresult, htext.trans dec_zero⟩

/-- Writing the accumulator's own value changes nothing. -/
theorem State.writeAcc_self {s : State} {v : Word64} (h : s.acc = v) : s.writeAcc v = s := by
  subst h
  rfl

/-- `UPDATE b` from a known accumulator, by the value of its fold. -/
theorem exec_update_of_fold_eq {s : State} {b : Byte} {a v : Word64} (hacc : s.acc = a) (hfold : fold a b = v) :
    exec (.update b) s = .next (s.writeAcc v) := by
  rw [exec_update, hacc, hfold]

/-- Settles O31: the all-ones accumulator is finalized to 0, whether reset or `INIT` set it. -/
theorem emptyInputGivesZero : Obligations.EmptyInputGivesZero := by
  refine ⟨finalize_initAcc, reflect64_initAcc, finalize_initAcc, rfl, exec_final_of_initAcc rfl, fun s => ?_⟩
  obtain ⟨u, hu⟩ := exec_final_of_initAcc (s := s.writeAcc Config.initAcc) rfl
  exact ⟨_, u, exec_init s, rfl, hu⟩

/-- Settles O40: `INIT` writes `ACC` and nothing else, and it writes the same value every time. -/
theorem initSetsTheAccumulatorOnly : Obligations.InitSetsTheAccumulatorOnly := by
  have hkeep : ∀ s : State, s.acc = Config.initAcc → exec .init s = .next s := fun s hacc => by
    rw [exec_init, State.writeAcc_self hacc]
  refine ⟨decode_encode .init, exec_init, fun s t h => hkeep t ?_, hkeep⟩
  rw [← Host.Outcome.next.inj h]
  rfl

/-- Settles O41: `UPDATE` writes the fold to `ACC` and nothing else; its values by evaluation. -/
theorem updateFoldsOneByteOnly : Obligations.UpdateFoldsOneByteOnly := by
  refine ⟨fun b => ?word, fun s b => ?fold, fun s hacc => ?allOnes, fun s hacc => ?zero, by decide +kernel⟩
  case word => rw [← encode_update, decode_encode]
  case fold => rw [exec_update, fold_eq_readTable, State.writeAcc]
  case allOnes =>
    exact ⟨exec_update_of_fold_eq hacc (by decide), exec_update_of_fold_eq hacc (by decide),
      exec_update_of_fold_eq hacc (by decide)⟩
  case zero =>
    have hfold : fold 0#64 0x00 = 0#64 := by decide
    rw [exec_update_of_fold_eq hacc hfold, State.writeAcc_self hacc]

/-- Settles O42: the four writes of `FINAL`, and what the host reads after it for each of the given accumulators. -/
theorem finalProducesResultTextAndFreshAccumulator : Obligations.FinalProducesResultTextAndFreshAccumulator := by
  refine ⟨decode_encode .final, exec_final, fun s => ?twice, fun s hacc => ?zero, fun s hacc => ?checkVector⟩
  case twice =>
    obtain ⟨t, ht, -, -, -, hacc⟩ := exec_final_of_finalize_eq (s := s) rfl
    obtain ⟨u, hu⟩ := exec_final_of_initAcc hacc
    exact ⟨t, u, ht, hu⟩
  case zero =>
    have hvalue : finalize 0#64 = 0xFFFFFFFFFFFFFFFF#64 := by decide
    obtain ⟨t, ht, hresult, hlen, htext, -⟩ := exec_final_of_finalize_eq (hacc ▸ hvalue)
    exact ⟨t, ht, hresult, hlen.trans (by decide), htext.trans (by decide)⟩
  case checkVector =>
    have hvalue : finalize 0xA0636704226C4566#64 = 0x995DC9BBDF1939FA#64 := by decide
    obtain ⟨t, ht, hresult, hlen, htext, hfresh⟩ := exec_final_of_finalize_eq (hacc ▸ hvalue)
    exact ⟨t, ht, hresult, hlen.trans (by decide), hfresh, htext.trans (by decide)⟩

end Sys2Proof.Machine

/-! PROOF. The decimal text of a value as a numeral (42_decimal.md R85): the value it stands for, and that no other text of
digits is as short. -/

namespace Sys2Proof.Machine

/-- Every character of the text is that of a decimal digit (42_decimal.md R87). -/
def IsDigitText (text : List Byte) : Prop := ∀ c ∈ text, 0x30 ≤ c.toNat ∧ c.toNat ≤ 0x39

/-- The number a text of digits stands for, its first character being the most significant digit. -/
def numeralValue (text : List Byte) : Nat := text.foldl (fun n c => 10 * n + (c.toNat - 0x30)) 0

/-- The digits of a text, least significant first, as `digitsFrom` gives those of a number. -/
def numeralDigits (text : List Byte) : List Nat := text.reverse.map fun c => c.toNat - 0x30

variable {v : Word64} {text text' : List Byte}

theorem numeralDigits_length (text : List Byte) : (numeralDigits text).length = text.length := by
  simp [numeralDigits]

theorem numeralValue_eq_ofDigits (text : List Byte) : numeralValue text = Nat.ofDigits 10 (numeralDigits text) := by
  rw [Nat.ofDigits_eq_foldr, numeralDigits, List.foldr_map, List.foldr_reverse, numeralValue]
  simp only [Nat.cast_id, Nat.add_comm]

theorem lt_ten_of_mem_numeralDigits (h : IsDigitText text) {x : Nat} (hx : x ∈ numeralDigits text) : x < 10 := by
  simp only [numeralDigits, List.mem_map, List.mem_reverse] at hx
  obtain ⟨c, hc, rfl⟩ := hx
  have hdigit := h c hc
  omega

/-- The character of a digit character's digit is that character. -/
theorem digitChar_toNat_sub {c : Byte} (h : 0x30 ≤ c.toNat ∧ c.toNat ≤ 0x39) : digitChar (c.toNat - 0x30) = c := by
  apply BitVec.eq_of_toNat_eq
  rw [digitChar_toNat (by omega)]
  omega

/-- A text of digits is spelled by its digits. -/
theorem map_digitChar_numeralDigits (h : IsDigitText text) : (numeralDigits text).reverse.map digitChar = text := by
  rw [numeralDigits, ← List.map_reverse, List.reverse_reverse, List.map_map]
  exact (List.map_congr_left fun c hc => digitChar_toNat_sub (h c hc)).trans (List.map_id text)

theorem numeralDigits_dec (v : Word64) : numeralDigits (dec v) = digitsFrom 20 v.toNat := by
  rw [numeralDigits, dec, ← List.map_reverse, List.reverse_reverse, List.map_map]
  refine (List.map_congr_left fun x hx => ?_).trans (List.map_id _)
  rw [Function.comp_apply, digitChar_toNat (lt_ten_of_mem_digitsFrom hx), Nat.add_sub_cancel_left, id_eq]

/-- Enough rounds of the loop of 42_decimal.md R85 take the number apart into its digits. -/
theorem ofDigits_digitsFrom {k t : Nat} (h : t < 10 ^ k) : Nat.ofDigits 10 (digitsFrom k t) = t := by
  induction k generalizing t with
  | zero =>
    obtain rfl : t = 0 := by simpa using h
    rfl
  | succ k ih =>
    rw [digitsFrom_succ, Nat.ofDigits_cons]
    split
    · rw [Nat.ofDigits_nil]
      omega
    · rw [ih (by omega)]
      exact Nat.mod_add_div t 10

/-- The loop ends as soon as nothing is left of the number, so after no more rounds than the number needs digits. -/
theorem digitsFrom_length_le_of_lt_pow (k : Nat) {t n : Nat} (h : t < 10 ^ (n + 1)) :
    (digitsFrom k t).length ≤ n + 1 := by
  induction k generalizing t n with
  | zero => exact Nat.zero_le _
  | succ k ih =>
    rw [digitsFrom_succ, List.length_cons, Nat.add_le_add_iff_right]
    split
    · exact Nat.zero_le n
    · cases n with
      | zero => omega
      | succ n => exact ih (by omega)

theorem isDigitText_dec (v : Word64) : IsDigitText (dec v) := fun _ => digit_of_mem_dec

theorem numeralValue_dec (v : Word64) : numeralValue (dec v) = v.toNat := by
  have hv : v.toNat < 10 ^ 20 := by omega
  rw [numeralValue_eq_ofDigits, numeralDigits_dec, ofDigits_digitsFrom hv]

theorem dec_injective : Function.Injective dec := fun u v h => by
  apply BitVec.eq_of_toNat_eq
  rw [← numeralValue_dec u, h, numeralValue_dec]

theorem numeralValue_lt_pow (h : IsDigitText text) : numeralValue text < 10 ^ text.length := by
  rw [numeralValue_eq_ofDigits, ← numeralDigits_length]
  exact Nat.ofDigits_lt_base_pow_length (by decide) fun _ => lt_ten_of_mem_numeralDigits h

/-- No text of digits that stands for the number is shorter than its `dec`. -/
theorem dec_length_le_of_numeralValue (hne : text ≠ []) (h : IsDigitText text) (hvalue : numeralValue text = v.toNat) :
    (dec v).length ≤ text.length := by
  cases text with
  | nil => exact absurd rfl hne
  | cons c cs =>
    rw [dec_length, List.length_cons]
    exact digitsFrom_length_le_of_lt_pow 20 (hvalue ▸ numeralValue_lt_pow h)

/-- Texts of digits of one length that stand for one number are one text. -/
theorem eq_of_numeralValue_eq (h : IsDigitText text) (h' : IsDigitText text') (hlength : text.length = text'.length)
    (hvalue : numeralValue text = numeralValue text') : text = text' := by
  have hdigits : numeralDigits text = numeralDigits text' := by
    rw [numeralValue_eq_ofDigits, numeralValue_eq_ofDigits] at hvalue
    refine Nat.ofDigits_inj_of_len_eq (by decide) ?_ (fun _ => lt_ten_of_mem_numeralDigits h)
      (fun _ => lt_ten_of_mem_numeralDigits h') hvalue
    rw [numeralDigits_length, numeralDigits_length, hlength]
  rw [← map_digitChar_numeralDigits h, hdigits, map_digitChar_numeralDigits h']

/-- Without its leading zero a longer text would stand for the same number and be shorter, so only "0" has one. -/
theorem dec_head?_eq_zero_iff (v : Word64) : (dec v).head? = some 0x30#8 ↔ v = 0 := by
  constructor
  · intro h
    obtain ⟨rest, htext⟩ := List.head?_eq_some_iff.mp h
    have hvalue : numeralValue rest = v.toNat := by rw [← numeralValue_dec v, htext]; rfl
    have hdigits : IsDigitText rest := fun c hc => isDigitText_dec v c (htext ▸ List.mem_cons_of_mem _ hc)
    cases rest with
    | nil => exact BitVec.eq_of_toNat_eq hvalue.symm
    | cons c cs =>
      have hle := dec_length_le_of_numeralValue (List.cons_ne_nil c cs) hdigits hvalue
      rw [htext] at hle
      exact absurd hle (Nat.not_succ_le_self _)
  · rintro rfl
    exact congrArg List.head? dec_zero

end Sys2Proof.Machine

/-! PROOF. The obligations of 42_decimal.md. -/

namespace Sys2Proof.Machine

/-- The worked example of 42_decimal.md R85, the result of the check vector. -/
theorem dec_checkValue : dec 0x995DC9BBDF1939FA =
    [0x31, 0x31, 0x30, 0x35, 0x31, 0x32, 0x31, 0x30, 0x38, 0x36, 0x39, 0x33, 0x37, 0x36, 0x31, 0x30, 0x34, 0x39, 0x35,
      0x34] := by decide

/-- Settles O32: a text of `n` digits stands for a number below `10 ^ n`, the loop of `dec` ends within that many rounds,
and the digits of a text of a given length are those of its value. -/
theorem decIsTheShortestNumeral : Obligations.DecIsTheShortestNumeral := by
  refine ⟨fun v => ⟨isDigitText_dec v, numeralValue_dec v, dec_length_pos v, dec_length_le v, dec_head?_eq_zero_iff v⟩,
    fun v text hne hdigits hvalue => ⟨dec_length_le_of_numeralValue hne hdigits hvalue, fun hlength => ?_⟩,
    dec_zero, dec_checkValue⟩
  exact eq_of_numeralValue_eq hdigits (isDigitText_dec v) hlength (hvalue.trans (numeralValue_dec v).symm)

/-- Settles O33: the value can be read off the text. -/
theorem textDeterminesTheValue : Obligations.TextDeterminesTheValue :=
  ⟨fun _ _ h => dec_injective h, fun _ _ => dec_injective.eq_iff⟩

/-- Settles O34: the texts of the two results, 0 and the check value. -/
theorem checksumTextOfTheCheckVector : Obligations.ChecksumTextOfTheCheckVector :=
  ⟨fun _ => rfl, (congrArg dec finalize_initAcc).trans dec_zero,
    (congrArg dec checksumFoldsThenFinalizes.2).trans dec_checkValue⟩

/-- Settles O35: the text has at most 20 characters, so the registers hold it whole; the examples by evaluation. -/
theorem finalWritesTheTextLeftAligned : Obligations.FinalWritesTheTextLeftAligned := by
  refine ⟨fun s => ⟨_, exec_final s, textLen_toNat (dec_length_le _), fun k => ?_,
    State.text_of_textMatchesResult ⟨rfl, rfl⟩⟩, by decide, by decide, by decide, by decide, by decide, by decide⟩
  split
  case isTrue h => exact textDigits_of_lt k.isLt h
  case isFalse h => exact textDigits_of_length_le k.isLt (Nat.le_of_not_lt h)

end Sys2Proof.Machine

/-! PROOF. The obligations of 60_exceptions.md. -/

namespace Sys2Proof.Machine

/-- No command faults or is refused, whatever the registers hold (60_exceptions.md R90). -/
theorem exists_exec_eq_next (i : Instr) (s : State) : ∃ t, exec i s = .next t := by
  cases i with
  | nop => exact ⟨_, exec_nop s⟩
  | init => exact ⟨_, exec_init s⟩
  | update b => exact ⟨_, exec_update b s⟩
  | final => exact ⟨_, exec_final s⟩

/-- With nothing left to present, a step stands still (30_encoding.md R55). -/
theorem step_of_inbox_nil {s : State} (hin : s.inbox = []) : step s = .next s := by
  rw [step, State.takeInput_nil hin, acceptInput_pause]

theorem exists_step_eq_next (s : State) : ∃ t, step s = .next t := by
  cases hin : s.inbox with
  | nil => exact ⟨s, step_of_inbox_nil hin⟩
  | cons e rest =>
    obtain ⟨t, ht⟩ := exists_step_of_event s e
    have hstep := ht rest
    rw [← hin] at hstep
    exact ⟨_, hstep⟩

/-- Settles O8: every command and every event has a next state, an outcome is one state at most, and `Fault` has no
constructor. -/
theorem everyCommandHasOneSuccessor : Obligations.EveryCommandHasOneSuccessor := by
  refine ⟨fun i s => ?successor, fun _ _ s hdec => acceptWord_reserved hdec s, exists_step_eq_next, nofun⟩
  obtain ⟨t, ht⟩ := exists_exec_eq_next i s
  exact ⟨t, ht, fun _ hu => Host.Outcome.next.inj (hu.symm.trans ht)⟩

end Sys2Proof.Machine

/-! PROOF. The obligations of 70_reset_and_hazards.md. -/

namespace Sys2Proof.Machine

variable {s : State} {e : HostEvent} {rest : List HostEvent}

/-- What the host reads after a reset is the checksum of the empty sequence (70_reset_and_hazards.md R105). -/
theorem State.reset_text_eq_checksum (rest : List HostEvent) :
    State.text { State.reset with inbox := rest } = checksum [] := by
  rw [State.reset_text, ← dec_zero, ← finalize_initAcc]
  rfl

/-- After a reset event an `UPDATE` needs no `INIT` before it: it folds its byte into all-ones. -/
theorem run_reset_update {b : Byte} (hin : s.inbox = e :: HostEvent.ofWord (encode (.update b)) :: rest)
    (hreset : e.reset = true) :
    run 2 s = .next { State.reset with acc := fold Config.initAcc b, inbox := rest } := by
  rw [run_succ 1 (step_of_reset hin hreset)]
  exact run_updates [b] 0 rfl

/-- Settles O2: a reset event gives the registers of the reset state, whose accumulator is already the one `INIT` writes. -/
theorem resetEventSetsEveryRegister : Obligations.ResetEventSetsEveryRegister := by
  refine ⟨fun s e rest hin hreset => ?registers, fun s e b rest hin hreset _ => ?update⟩
  case registers =>
    obtain ⟨hacc, hresult, hlen, hfirst, hothers, -⟩ := resetGivesEveryRegisterItsValue
    obtain ⟨-, -, -, hinit⟩ := initSetsTheAccumulatorOnly
    exact ⟨_, step_of_reset hin hreset, hacc, hresult, hlen, hfirst, hothers, hinit _ hacc,
      hresult.trans finalize_initAcc.symm, State.reset_text_eq_checksum rest⟩
  case update => exact ⟨_, run_reset_update hin hreset, rfl⟩

end Sys2Proof.Machine

/-! PROOF. The history of the computations (10_state.md R15): what each command, word and event does to the registers is
what it does to the history, so a run keeps the two together (70_reset_and_hazards.md R115). -/

namespace Sys2Proof.Machine

variable {s t : State} {h : History} {i : Instr} {e : HostEvent} {cw : CommandWord} {rest : List HostEvent}

theorem History.word_of_command (hdec : decode cw = .command i) : h.word cw = h.command i := by
  simp [History.word, hdec]

theorem History.word_of_reserved {why : Reserved} (hdec : decode cw = .reserved why) : h.word cw = h := by
  simp [History.word, hdec]

/-- The text a history asks for is that of the result it asks for. -/
theorem State.records_iff :
    s.records h ↔ s.acc = foldBytes Config.initAcc h.current ∧ s.result = crc64 h.completed ∧ s.textMatchesResult :=
  and_congr_right fun _ => and_congr_right fun hresult => by
    rw [State.textMatchesResult, hresult, checksum]

theorem State.reset_records (rest : List HostEvent) : State.records { State.reset with inbox := rest } History.start :=
  State.records_iff.mpr ⟨rfl, finalize_initAcc.symm, State.reset_textMatchesResult⟩

/-- No command touches the host's list. -/
theorem exec_keeps_inbox (hexec : exec i s = .next t) : t.inbox = s.inbox := by
  cases i with
  | nop => rw [← Host.Outcome.next.inj hexec]
  | init => rw [← Host.Outcome.next.inj hexec, State.writeAcc_inbox]
  | update b => rw [← Host.Outcome.next.inj hexec, State.writeAcc_inbox]
  | final => rw [← Host.Outcome.next.inj hexec, State.writeAcc_inbox, State.writeResult_inbox]

/-- `INIT` empties the open computation, `UPDATE` appends its byte to it, and `FINAL` completes it. -/
theorem exec_records (hs : s.records h) (hexec : exec i s = .next t) : t.records (h.command i) := by
  obtain ⟨hacc, hcompleted⟩ := hs
  cases i with
  | nop =>
    rw [← Host.Outcome.next.inj hexec]
    exact ⟨hacc, hcompleted⟩
  | init =>
    rw [← Host.Outcome.next.inj hexec]
    exact ⟨rfl, hcompleted⟩
  | update b =>
    have hfold : fold s.acc b = foldBytes Config.initAcc (h.current ++ [b]) := by rw [foldBytes_concat, hacc]
    rw [← Host.Outcome.next.inj hexec]
    exact ⟨hfold, hcompleted⟩
  | final =>
    have hresult : finalize s.acc = crc64 h.current := congrArg finalize hacc
    rw [← Host.Outcome.next.inj hexec]
    exact State.records_iff.mpr ⟨rfl, hresult, State.writeResult_textMatchesResult s _⟩

theorem acceptWord_records (hs : s.records h) (cw : CommandWord) :
    ∃ t, acceptWord cw s = .next t ∧ t.records (h.word cw) ∧ t.inbox = s.inbox := by
  cases hdec : decode cw with
  | command i =>
    obtain ⟨t, hexec⟩ := exists_exec_eq_next i s
    rw [History.word_of_command hdec]
    exact ⟨t, (acceptWord_command hdec s).trans hexec, exec_records hs hexec, exec_keeps_inbox hexec⟩
  | reserved why =>
    rw [History.word_of_reserved hdec]
    exact ⟨s, acceptWord_reserved hdec s, hs, rfl⟩

/-- One event takes the registers and the history to the next ones together. -/
theorem step_records (hs : s.records h) (hin : s.inbox = e :: rest) :
    ∃ t, step s = .next t ∧ t.records (h.event e) ∧ t.inbox = rest := by
  obtain ⟨reset, word⟩ := e
  rw [step, State.takeInput_cons hin]
  cases reset with
  | true => exact ⟨{ State.reset with inbox := rest }, rfl, State.reset_records rest, rfl⟩
  | false =>
    cases word with
    | none => exact ⟨{ s with inbox := rest }, rfl, hs, rfl⟩
    | some cw => exact acceptWord_records (s := { s with inbox := rest }) hs cw

/-- Registers that are those of a history stay so along any list of events. -/
theorem run_records (es : List HostEvent) (hs : s.records h) (hin : s.inbox = es ++ rest) :
    ∃ t, run es.length s = .next t ∧ t.records (h.events es) ∧ t.inbox = rest := by
  induction es generalizing s h with
  | nil => exact ⟨s, run_zero s, hs, hin⟩
  | cons e es ih =>
    obtain ⟨t, hstep, ht, hrest⟩ := step_records hs hin
    rw [List.length_cons, run_succ _ hstep]
    exact ih ht hrest

end Sys2Proof.Machine

/-! PROOF. A device as the product of its engines (20_memory.md R40): what one move does to each engine, what a
schedule does, and that the order of the moves does not matter. -/

namespace Sys2Proof.Machine

variable {n : Nat}

theorem Device.ext_engines {d d' : Device n} (h : ∀ k : Fin n, d.engines[k] = d'.engines[k]) : d = d' :=
  congrArg Device.mk (Vector.ext fun i hi => h ⟨i, hi⟩)

theorem Device.runSchedule_cons {d d' : Device n} {k : Fin n} (ks : List (Fin n)) (h : d.stepAt k = .next d') :
    d.runSchedule (k :: ks) = d'.runSchedule ks := by
  simp only [Device.runSchedule, h]

/-- A move always has a next device: the engine named takes its step, and every other engine stays. -/
theorem Device.exists_stepAt_eq_next (d : Device n) (k : Fin n) :
    ∃ d', d.stepAt k = .next d' ∧ step d.engines[k] = .next d'.engines[k] ∧
      ∀ m : Fin n, m ≠ k → d'.engines[m] = d.engines[m] := by
  obtain ⟨t, ht⟩ := exists_step_eq_next d.engines[k]
  refine ⟨_, Device.stepAt_of_step ht, by simpa using ht, fun m hm => ?_⟩
  have hval : k.val ≠ m.val := fun heq => hm (Fin.ext heq.symm)
  exact Vector.getElem_set_ne k.isLt m.isLt hval

/-- After a schedule each engine is where as many of its own steps alone bring it as the schedule names it. -/
theorem Device.exists_runSchedule_eq_next (d : Device n) (ks : List (Fin n)) :
    ∃ d', d.runSchedule ks = .next d' ∧ ∀ k : Fin n, run (ks.count k) d.engines[k] = .next d'.engines[k] := by
  induction ks generalizing d with
  | nil => exact ⟨d, rfl, fun k => run_zero _⟩
  | cons j ks ih =>
    obtain ⟨d₁, hmove, hstep, hothers⟩ := d.exists_stepAt_eq_next j
    obtain ⟨d', hrun, hcount⟩ := ih d₁
    refine ⟨d', (Device.runSchedule_cons ks hmove).trans hrun, fun k => ?_⟩
    by_cases hk : k = j
    · subst hk
      rw [List.count_cons_self, run_succ _ hstep, hcount]
    · rw [List.count_cons_of_ne (Ne.symm hk), ← hothers k hk, hcount]

/-- Schedules that name every engine equally often lead to the same device: an engine's end depends on its own steps
alone. -/
theorem Device.runSchedule_perm {ks js : List (Fin n)} (h : ks.Perm js) (d : Device n) :
    d.runSchedule ks = d.runSchedule js := by
  obtain ⟨d₁, hks, hcount₁⟩ := d.exists_runSchedule_eq_next ks
  obtain ⟨d₂, hjs, hcount₂⟩ := d.exists_runSchedule_eq_next js
  have hengines : ∀ k : Fin n, d₁.engines[k] = d₂.engines[k] := fun k =>
    Host.Outcome.next.inj ((hcount₁ k).symm.trans (h.count_eq k ▸ hcount₂ k))
  rw [hks, hjs, Device.ext_engines hengines]

end Sys2Proof.Machine

/-! PROOF. Reading back the assembler text that is printed (30_encoding.md R52): a printed hexadecimal digit is read as its
value, and so two digits as a byte and four as a word. -/

namespace Sys2Proof.Machine.Asm

theorem digitValue_hexDigit {v : Nat} (hv : v < 16) : digitValue 16 (hexDigit v) = some v := by
  revert v
  decide

theorem moreDigits_hexDigit {d : Nat} (hd : d < 16) (v : Nat) (cs : List Char) :
    moreDigits 16 v (hexDigit d :: cs) = moreDigits 16 (v * 16 + d) cs := by
  rw [moreDigits, digitValue_hexDigit hd]

theorem number_hexDigit {d : Nat} (hd : d < 16) (cs : List Char) :
    number 16 (hexDigit d :: cs) = some (moreDigits 16 d cs) := by
  rw [number, digitValue_hexDigit hd, Option.map_some]

/-- The two digits of a byte. -/
theorem number_hexByte (b : Byte) : number 16 [hexDigit (b.toNat / 16), hexDigit (b.toNat % 16)] = some (b.toNat, []) := by
  have hb : b.toNat < 256 := b.isLt
  rw [number_hexDigit (by omega), moreDigits_hexDigit (by omega), moreDigits, Nat.div_add_mod']

/-- The four digits of a word. -/
theorem number_hexWord (cw : CommandWord) :
    number 16 [hexDigit (cw.toNat / 4096), hexDigit (cw.toNat / 256 % 16), hexDigit (cw.toNat / 16 % 16),
      hexDigit (cw.toNat % 16)] = some (cw.toNat, []) := by
  have hcw : cw.toNat < 65536 := cw.isLt
  have hvalue : ((cw.toNat / 4096 * 16 + cw.toNat / 256 % 16) * 16 + cw.toNat / 16 % 16) * 16 + cw.toNat % 16 =
      cw.toNat := by omega
  rw [number_hexDigit (by omega), moreDigits_hexDigit (by omega), moreDigits_hexDigit (by omega),
    moreDigits_hexDigit (by omega), moreDigits, hvalue]

theorem oneByte_hexByte (b : Byte) :
    oneByte ['0', 'x', hexDigit (b.toNat / 16), hexDigit (b.toNat % 16)] = some b := by
  have hoperand : byteOperand ['0', 'x', hexDigit (b.toNat / 16), hexDigit (b.toNat % 16)] = some (b, []) := by
    simp [byteOperand, number_hexByte, asByte, b.isLt]
  rw [oneByte, hoperand]
  rfl

theorem wordOperand_hexWord (cw : CommandWord) :
    wordOperand ['0', 'x', hexDigit (cw.toNat / 4096), hexDigit (cw.toNat / 256 % 16), hexDigit (cw.toNat / 16 % 16),
      hexDigit (cw.toNat % 16)] = some cw := by
  simp only [wordOperand, number_hexWord, BitVec.ofNat_toNat, BitVec.setWidth_eq]
  rfl

/-- The mnemonics are concrete characters and the line after one starts at its `0x`, so only the digits are left to read. -/
theorem parseLine_printInstr (i : Instr) : parseLine (printInstr i) = some (.command i) := by
  cases i with
  | nop => decide
  | init => decide
  | update b => exact congrArg (Option.map fun b => Line.command (.update b)) (oneByte_hexByte b)
  | final => decide

theorem parseLine_printWord (cw : CommandWord) : parseLine (printWord cw) = some (.word cw) :=
  congrArg (Option.map Line.word) (wordOperand_hexWord cw)

end Sys2Proof.Machine.Asm

/-! PROOF. The obligations on histories, devices, the assembler text and single steps. -/

namespace Sys2Proof.Machine

/-- Settles O49, by induction on the list of events. -/
theorem registersAreDeterminedByTheHistory : Obligations.RegistersAreDeterminedByTheHistory :=
  fun _ _ es _ hs hin => run_records es hs hin

/-- Settles O51, by induction on the schedule. -/
theorem deviceIsTheProductOfItsInstances : Obligations.DeviceIsTheProductOfItsInstances :=
  fun _ => Device.exists_runSchedule_eq_next

/-- Settles O52: the two orders name every engine equally often, and a third one not at all. -/
theorem stepsOfDistinctInstancesCommute : Obligations.StepsOfDistinctInstancesCommute := by
  intro n d j k _
  obtain ⟨d', hrun, hcount⟩ := d.exists_runSchedule_eq_next [j, k]
  refine ⟨d', hrun, (Device.runSchedule_perm (List.Perm.swap j k []) d).trans hrun, fun m hj hk => ?_⟩
  have hzero : [j, k].count m = 0 := List.count_eq_zero.mpr (by simp [hj, hk])
  have hm := hcount m
  rw [hzero, run_zero] at hm
  exact (Host.Outcome.next.inj hm).symm

/-- Settles O55, from the reading of printed hexadecimal digits. -/
theorem assemblerReadsBackWhatIsPrinted : Obligations.AssemblerReadsBackWhatIsPrinted :=
  ⟨Asm.parseLine_printInstr, Asm.parseLine_printWord⟩

/-- Settles O3: a reset event takes its word with it, and the `UPDATE` behind it is the next command. -/
theorem resetDropsTheWordPresentedWithIt : Obligations.ResetDropsTheWordPresentedWithIt :=
  ⟨fun _ _ _ hin hreset => ⟨_, step_of_reset hin hreset, rfl, rfl⟩,
    fun _ _ _ _ hin hreset => ⟨_, run_reset_update hin hreset, rfl, rfl⟩⟩

/-- Settles O4: a pause is an idle event. -/
theorem pauseChangesNothing : Obligations.PauseChangesNothing :=
  ⟨fun _ => step_of_inbox_nil, fun _ _ hin => step_of_idle hin rfl⟩

/-- Settles O5, by the rule of a step that takes a command. -/
theorem stepRunsTheDecodedCommand : Obligations.StepRunsTheDecodedCommand :=
  fun _ _ _ _ hin hdec => step_of_command hin hdec

/-- An opcode-table number that reads as a command is the number of a word that decodes to it. -/
theorem decode_of_decodeTableWord {nbits w : Nat} {i : Instr} (hdec : decodeTableWord nbits w = some i) :
    decode (tableWord nbits w) = .command i := by
  rw [decodeTableWord] at hdec
  cases hword : decode (tableWord nbits w) with
  | command j => simpa [hword, Decoded.instr?] using hdec
  | reserved why => simp [hword, Decoded.instr?] at hdec

/-- Settles O6: the loaded word is the first event, and taking it leaves the state it was loaded into. -/
theorem fetchWordIsRunNext : Obligations.FetchWordIsRunNext := by
  intro s nbits w i hdec
  exact step_of_command (s := s.withFetchWord nbits w) rfl (decode_of_decodeTableWord hdec)

/-- Settles O11: the first six are the encoder's words of their commands; the reserved ones by evaluation. -/
theorem writtenWordsDecodeAsListed : Obligations.WrittenWordsDecodeAsListed :=
  ⟨decode_encode .nop, decode_encode .init, decode_encode (.update 0x00), decode_encode (.update 0x31),
    decode_encode (.update 0xFF), decode_encode .final, by decide, by decide, by decide, by decide, by decide, by decide⟩

/-- Settles O43, from what every command keeps and what every command but `FINAL` keeps. -/
theorem commandsChangeOnlyTheirRegisters : Obligations.CommandsChangeOnlyTheirRegisters := by
  refine fun i s t hexec => ⟨exec_keeps_inbox hexec, fun hnop => ?_, fun hi => exec_keeps_result hi hexec⟩
  subst hnop
  rw [← Host.Outcome.next.inj hexec]

/-- Settles O50: `ACC` is that of no byte, and the text that of its checksum 0. -/
theorem resetRecordsTheEmptyHistory : Obligations.ResetRecordsTheEmptyHistory := State.reset_records []

/-- Settles O53: the one engine moves as the machine does. -/
theorem defaultDeviceIsTheMachine : Obligations.DefaultDeviceIsTheMachine := by
  intro s
  obtain ⟨t, ht⟩ := exists_step_eq_next s
  exact ⟨t, ht, Device.stepAt_of_step (d := Device.single s) (k := 0) ht⟩

end Sys2Proof.Machine
